-- ==== Sys2Proof/Word.lean ====
section
/-! DEFINITION. The two value types of 00_scope.md R10: a byte and a 16-bit word. -/

namespace Sys2Proof

/-- `Byte` of R10: an unsigned 8-bit value. -/
abbrev Byte := BitVec 8

/-- `Addr16` or `Word` of R10: an unsigned 16-bit value. -/
abbrev Word := BitVec 16

end Sys2Proof
end

