-- ==== Sys2Proof/Syntax.lean ====
section
/-! DEFINITION. The instruction set as syntax: the addressing modes and instruction kinds of 30_encoding.md R54 and
R55, the operand of each mode, one constructor of `Instr` per legal opcode, and one for the illegal byte values of R56. -/

namespace Sys2Proof

/-- The 13 addressing modes of R51. -/
inductive Mode where
  | implied | accumulator | immediate
  | zeroPage | zeroPageX | zeroPageY
  | absolute | absoluteX | absoluteY
  | indirect | indirectX | indirectY
  | relative
  deriving DecidableEq, Repr

/-- The 56 instruction kinds of R55, one per mnemonic. -/
inductive Kind where
  | lda | ldx | ldy | sta | stx | sty
  | adc | sbc | cmp | cpx | cpy
  | and | ora | eor | bit
  | asl | lsr | rol | ror
  | inc | dec | inx | iny | dex | dey
  | bcc | bcs | beq | bne | bmi | bpl | bvc | bvs
  | jmp | jsr | rts | brk | rti | nop
  | pha | php | pla | plp
  | clc | sec | cli | sei | clv | cld | sed | tax | tay | txa
  | tya | tsx | txs
  deriving DecidableEq, Repr

/-- An operand: an addressing mode with the operand bytes R53 gives it. -/
inductive Operand where
  | implied
  | accumulator
  | immediate (v : Byte)
  | zeroPage (z : Byte)
  | zeroPageX (z : Byte)
  | zeroPageY (z : Byte)
  | absolute (a : Word)
  | absoluteX (a : Word)
  | absoluteY (a : Word)
  | indirect (a : Word)
  | indirectX (z : Byte)
  | indirectY (z : Byte)
  | relative (d : Byte)
  deriving DecidableEq, Repr

/-- One legal entry of the opcode table, R54: the opcode byte, kind, mode, length in bytes, base cycles, and whether
the page-cross flag adds a cycle. -/
structure Row where
  opcode    : Byte
  kind      : Kind
  mode      : Mode
  length    : Nat
  base      : Nat
  pageCross : Bool
  deriving DecidableEq, Repr

/-- The instructions: one constructor per legal row of R55, named by mnemonic and mode (`Imm` immediate, `Zp`
zero page, `Zpx`/`Zpy` zero page indexed, `Abs` absolute, `Absx`/`Absy` absolute indexed, `Ind` indirect, `Indx`
indexed indirect, `Indy` indirect indexed, `Acc` accumulator), with its operand byte or word; and `illegal` for the
105 rows of R56, with the byte fetched. -/
inductive Instr where
  -- LDA (41_load_store.md R95)
  | ldaIndx (z : Byte)
  | ldaZp (z : Byte)
  | ldaImm (v : Byte)
  | ldaAbs (a : Word)
  | ldaIndy (z : Byte)
  | ldaZpx (z : Byte)
  | ldaAbsy (a : Word)
  | ldaAbsx (a : Word)
  -- LDX (41_load_store.md R96)
  | ldxImm (v : Byte)
  | ldxZp (z : Byte)
  | ldxAbs (a : Word)
  | ldxZpy (z : Byte)
  | ldxAbsy (a : Word)
  -- LDY (41_load_store.md R97)
  | ldyImm (v : Byte)
  | ldyZp (z : Byte)
  | ldyAbs (a : Word)
  | ldyZpx (z : Byte)
  | ldyAbsx (a : Word)
  -- STA (41_load_store.md R98)
  | staIndx (z : Byte)
  | staZp (z : Byte)
  | staAbs (a : Word)
  | staIndy (z : Byte)
  | staZpx (z : Byte)
  | staAbsy (a : Word)
  | staAbsx (a : Word)
  -- STX (41_load_store.md R99)
  | stxZp (z : Byte)
  | stxAbs (a : Word)
  | stxZpy (z : Byte)
  -- STY (41_load_store.md R100)
  | styZp (z : Byte)
  | styAbs (a : Word)
  | styZpx (z : Byte)
  -- ADC (42_arithmetic_compare.md R102)
  | adcIndx (z : Byte)
  | adcZp (z : Byte)
  | adcImm (v : Byte)
  | adcAbs (a : Word)
  | adcIndy (z : Byte)
  | adcZpx (z : Byte)
  | adcAbsy (a : Word)
  | adcAbsx (a : Word)
  -- SBC (42_arithmetic_compare.md R103)
  | sbcIndx (z : Byte)
  | sbcZp (z : Byte)
  | sbcImm (v : Byte)
  | sbcAbs (a : Word)
  | sbcIndy (z : Byte)
  | sbcZpx (z : Byte)
  | sbcAbsy (a : Word)
  | sbcAbsx (a : Word)
  -- CMP (42_arithmetic_compare.md R104)
  | cmpIndx (z : Byte)
  | cmpZp (z : Byte)
  | cmpImm (v : Byte)
  | cmpAbs (a : Word)
  | cmpIndy (z : Byte)
  | cmpZpx (z : Byte)
  | cmpAbsy (a : Word)
  | cmpAbsx (a : Word)
  -- CPX (42_arithmetic_compare.md R105)
  | cpxImm (v : Byte)
  | cpxZp (z : Byte)
  | cpxAbs (a : Word)
  -- CPY (42_arithmetic_compare.md R106)
  | cpyImm (v : Byte)
  | cpyZp (z : Byte)
  | cpyAbs (a : Word)
  -- AND (43_logical.md R107)
  | andIndx (z : Byte)
  | andZp (z : Byte)
  | andImm (v : Byte)
  | andAbs (a : Word)
  | andIndy (z : Byte)
  | andZpx (z : Byte)
  | andAbsy (a : Word)
  | andAbsx (a : Word)
  -- ORA (43_logical.md R108)
  | oraIndx (z : Byte)
  | oraZp (z : Byte)
  | oraImm (v : Byte)
  | oraAbs (a : Word)
  | oraIndy (z : Byte)
  | oraZpx (z : Byte)
  | oraAbsy (a : Word)
  | oraAbsx (a : Word)
  -- EOR (43_logical.md R109)
  | eorIndx (z : Byte)
  | eorZp (z : Byte)
  | eorImm (v : Byte)
  | eorAbs (a : Word)
  | eorIndy (z : Byte)
  | eorZpx (z : Byte)
  | eorAbsy (a : Word)
  | eorAbsx (a : Word)
  -- BIT (43_logical.md R110)
  | bitZp (z : Byte)
  | bitAbs (a : Word)
  -- ASL (44_shift_rotate.md R111)
  | aslZp (z : Byte)
  | aslAcc
  | aslAbs (a : Word)
  | aslZpx (z : Byte)
  | aslAbsx (a : Word)
  -- LSR (44_shift_rotate.md R112)
  | lsrZp (z : Byte)
  | lsrAcc
  | lsrAbs (a : Word)
  | lsrZpx (z : Byte)
  | lsrAbsx (a : Word)
  -- ROL (44_shift_rotate.md R113)
  | rolZp (z : Byte)
  | rolAcc
  | rolAbs (a : Word)
  | rolZpx (z : Byte)
  | rolAbsx (a : Word)
  -- ROR (44_shift_rotate.md R114)
  | rorZp (z : Byte)
  | rorAcc
  | rorAbs (a : Word)
  | rorZpx (z : Byte)
  | rorAbsx (a : Word)
  -- INC (45_inc_dec.md R115)
  | incZp (z : Byte)
  | incAbs (a : Word)
  | incZpx (z : Byte)
  | incAbsx (a : Word)
  -- DEC (45_inc_dec.md R116)
  | decZp (z : Byte)
  | decAbs (a : Word)
  | decZpx (z : Byte)
  | decAbsx (a : Word)
  -- INX (45_inc_dec.md R117)
  | inx
  -- INY (45_inc_dec.md R118)
  | iny
  -- DEX (45_inc_dec.md R119)
  | dex
  -- DEY (45_inc_dec.md R120)
  | dey
  -- BCC (46_branch.md R122)
  | bcc (d : Byte)
  -- BCS (46_branch.md R123)
  | bcs (d : Byte)
  -- BEQ (46_branch.md R124)
  | beq (d : Byte)
  -- BNE (46_branch.md R125)
  | bne (d : Byte)
  -- BMI (46_branch.md R126)
  | bmi (d : Byte)
  -- BPL (46_branch.md R127)
  | bpl (d : Byte)
  -- BVC (46_branch.md R128)
  | bvc (d : Byte)
  -- BVS (46_branch.md R129)
  | bvs (d : Byte)
  -- JMP (47_jump_call_system.md R130)
  | jmpAbs (a : Word)
  | jmpInd (a : Word)
  -- JSR (47_jump_call_system.md R131)
  | jsr (a : Word)
  -- RTS (47_jump_call_system.md R132)
  | rts
  -- BRK (47_jump_call_system.md R133)
  | brk
  -- RTI (47_jump_call_system.md R134)
  | rti
  -- NOP (47_jump_call_system.md R135)
  | nop
  -- PHA (48_stack.md R138)
  | pha
  -- PHP (48_stack.md R139)
  | php
  -- PLA (48_stack.md R140)
  | pla
  -- PLP (48_stack.md R141)
  | plp
  -- CLC (49_flags_transfer.md R142)
  | clc
  -- SEC (49_flags_transfer.md R143)
  | sec
  -- CLI (49_flags_transfer.md R144)
  | cli
  -- SEI (49_flags_transfer.md R145)
  | sei
  -- CLV (49_flags_transfer.md R146)
  | clv
  -- CLD (49_flags_transfer.md R147)
  | cld
  -- SED (49_flags_transfer.md R148)
  | sed
  -- TAX (49_flags_transfer.md R149)
  | tax
  -- TAY (49_flags_transfer.md R150)
  | tay
  -- TXA (49_flags_transfer.md R151)
  | txa
  -- TYA (49_flags_transfer.md R152)
  | tya
  -- TSX (49_flags_transfer.md R153)
  | tsx
  -- TXS (49_flags_transfer.md R154)
  | txs
  -- the illegal byte values (40_dispatch.md R76, 30_encoding.md R56)
  | illegal (op : Byte)
  deriving DecidableEq, Repr

end Sys2Proof
end

