-- ==== Sys2Proof/Decode.lean ====
section
/-! DEFINITION. The opcode table of 30_encoding.md R55, the decoder (total on any bytes), the encoder, and the byte
order of a 16-bit operand (R53, R62). -/

namespace Sys2Proof

/-! ## Byte order (R10) -/

/-- `{h, l}` of R10: the word with high byte `h` and low byte `l`. -/
def wordOf (h l : Byte) : Word := h ++ l

/-- `lo(w)` of R10. -/
def loByte (w : Word) : Byte := w.extractLsb' 0 8

/-- `hi(w)` of R10, the page of an address. -/
def hiByte (w : Word) : Byte := w.extractLsb' 8 8

/-! ## The opcode table: the 151 legal rows of R55 -/

def rowBrk : Row := ⟨0x00, .brk, .implied, 1, 7, false⟩
def rowOraIndx : Row := ⟨0x01, .ora, .indirectX, 2, 6, false⟩
def rowOraZp : Row := ⟨0x05, .ora, .zeroPage, 2, 3, false⟩
def rowAslZp : Row := ⟨0x06, .asl, .zeroPage, 2, 5, false⟩
def rowPhp : Row := ⟨0x08, .php, .implied, 1, 3, false⟩
def rowOraImm : Row := ⟨0x09, .ora, .immediate, 2, 2, false⟩
def rowAslAcc : Row := ⟨0x0A, .asl, .accumulator, 1, 2, false⟩
def rowOraAbs : Row := ⟨0x0D, .ora, .absolute, 3, 4, false⟩
def rowAslAbs : Row := ⟨0x0E, .asl, .absolute, 3, 6, false⟩
def rowBpl : Row := ⟨0x10, .bpl, .relative, 2, 2, false⟩
def rowOraIndy : Row := ⟨0x11, .ora, .indirectY, 2, 5, true⟩
def rowOraZpx : Row := ⟨0x15, .ora, .zeroPageX, 2, 4, false⟩
def rowAslZpx : Row := ⟨0x16, .asl, .zeroPageX, 2, 6, false⟩
def rowClc : Row := ⟨0x18, .clc, .implied, 1, 2, false⟩
def rowOraAbsy : Row := ⟨0x19, .ora, .absoluteY, 3, 4, true⟩
def rowOraAbsx : Row := ⟨0x1D, .ora, .absoluteX, 3, 4, true⟩
def rowAslAbsx : Row := ⟨0x1E, .asl, .absoluteX, 3, 7, false⟩
def rowJsr : Row := ⟨0x20, .jsr, .absolute, 3, 6, false⟩
def rowAndIndx : Row := ⟨0x21, .and, .indirectX, 2, 6, false⟩
def rowBitZp : Row := ⟨0x24, .bit, .zeroPage, 2, 3, false⟩
def rowAndZp : Row := ⟨0x25, .and, .zeroPage, 2, 3, false⟩
def rowRolZp : Row := ⟨0x26, .rol, .zeroPage, 2, 5, false⟩
def rowPlp : Row := ⟨0x28, .plp, .implied, 1, 4, false⟩
def rowAndImm : Row := ⟨0x29, .and, .immediate, 2, 2, false⟩
def rowRolAcc : Row := ⟨0x2A, .rol, .accumulator, 1, 2, false⟩
def rowBitAbs : Row := ⟨0x2C, .bit, .absolute, 3, 4, false⟩
def rowAndAbs : Row := ⟨0x2D, .and, .absolute, 3, 4, false⟩
def rowRolAbs : Row := ⟨0x2E, .rol, .absolute, 3, 6, false⟩
def rowBmi : Row := ⟨0x30, .bmi, .relative, 2, 2, false⟩
def rowAndIndy : Row := ⟨0x31, .and, .indirectY, 2, 5, true⟩
def rowAndZpx : Row := ⟨0x35, .and, .zeroPageX, 2, 4, false⟩
def rowRolZpx : Row := ⟨0x36, .rol, .zeroPageX, 2, 6, false⟩
def rowSec : Row := ⟨0x38, .sec, .implied, 1, 2, false⟩
def rowAndAbsy : Row := ⟨0x39, .and, .absoluteY, 3, 4, true⟩
def rowAndAbsx : Row := ⟨0x3D, .and, .absoluteX, 3, 4, true⟩
def rowRolAbsx : Row := ⟨0x3E, .rol, .absoluteX, 3, 7, false⟩
def rowRti : Row := ⟨0x40, .rti, .implied, 1, 6, false⟩
def rowEorIndx : Row := ⟨0x41, .eor, .indirectX, 2, 6, false⟩
def rowEorZp : Row := ⟨0x45, .eor, .zeroPage, 2, 3, false⟩
def rowLsrZp : Row := ⟨0x46, .lsr, .zeroPage, 2, 5, false⟩
def rowPha : Row := ⟨0x48, .pha, .implied, 1, 3, false⟩
def rowEorImm : Row := ⟨0x49, .eor, .immediate, 2, 2, false⟩
def rowLsrAcc : Row := ⟨0x4A, .lsr, .accumulator, 1, 2, false⟩
def rowJmpAbs : Row := ⟨0x4C, .jmp, .absolute, 3, 3, false⟩
def rowEorAbs : Row := ⟨0x4D, .eor, .absolute, 3, 4, false⟩
def rowLsrAbs : Row := ⟨0x4E, .lsr, .absolute, 3, 6, false⟩
def rowBvc : Row := ⟨0x50, .bvc, .relative, 2, 2, false⟩
def rowEorIndy : Row := ⟨0x51, .eor, .indirectY, 2, 5, true⟩
def rowEorZpx : Row := ⟨0x55, .eor, .zeroPageX, 2, 4, false⟩
def rowLsrZpx : Row := ⟨0x56, .lsr, .zeroPageX, 2, 6, false⟩
def rowCli : Row := ⟨0x58, .cli, .implied, 1, 2, false⟩
def rowEorAbsy : Row := ⟨0x59, .eor, .absoluteY, 3, 4, true⟩
def rowEorAbsx : Row := ⟨0x5D, .eor, .absoluteX, 3, 4, true⟩
def rowLsrAbsx : Row := ⟨0x5E, .lsr, .absoluteX, 3, 7, false⟩
def rowRts : Row := ⟨0x60, .rts, .implied, 1, 6, false⟩
def rowAdcIndx : Row := ⟨0x61, .adc, .indirectX, 2, 6, false⟩
def rowAdcZp : Row := ⟨0x65, .adc, .zeroPage, 2, 3, false⟩
def rowRorZp : Row := ⟨0x66, .ror, .zeroPage, 2, 5, false⟩
def rowPla : Row := ⟨0x68, .pla, .implied, 1, 4, false⟩
def rowAdcImm : Row := ⟨0x69, .adc, .immediate, 2, 2, false⟩
def rowRorAcc : Row := ⟨0x6A, .ror, .accumulator, 1, 2, false⟩
def rowJmpInd : Row := ⟨0x6C, .jmp, .indirect, 3, 5, false⟩
def rowAdcAbs : Row := ⟨0x6D, .adc, .absolute, 3, 4, false⟩
def rowRorAbs : Row := ⟨0x6E, .ror, .absolute, 3, 6, false⟩
def rowBvs : Row := ⟨0x70, .bvs, .relative, 2, 2, false⟩
def rowAdcIndy : Row := ⟨0x71, .adc, .indirectY, 2, 5, true⟩
def rowAdcZpx : Row := ⟨0x75, .adc, .zeroPageX, 2, 4, false⟩
def rowRorZpx : Row := ⟨0x76, .ror, .zeroPageX, 2, 6, false⟩
def rowSei : Row := ⟨0x78, .sei, .implied, 1, 2, false⟩
def rowAdcAbsy : Row := ⟨0x79, .adc, .absoluteY, 3, 4, true⟩
def rowAdcAbsx : Row := ⟨0x7D, .adc, .absoluteX, 3, 4, true⟩
def rowRorAbsx : Row := ⟨0x7E, .ror, .absoluteX, 3, 7, false⟩
def rowStaIndx : Row := ⟨0x81, .sta, .indirectX, 2, 6, false⟩
def rowStyZp : Row := ⟨0x84, .sty, .zeroPage, 2, 3, false⟩
def rowStaZp : Row := ⟨0x85, .sta, .zeroPage, 2, 3, false⟩
def rowStxZp : Row := ⟨0x86, .stx, .zeroPage, 2, 3, false⟩
def rowDey : Row := ⟨0x88, .dey, .implied, 1, 2, false⟩
def rowTxa : Row := ⟨0x8A, .txa, .implied, 1, 2, false⟩
def rowStyAbs : Row := ⟨0x8C, .sty, .absolute, 3, 4, false⟩
def rowStaAbs : Row := ⟨0x8D, .sta, .absolute, 3, 4, false⟩
def rowStxAbs : Row := ⟨0x8E, .stx, .absolute, 3, 4, false⟩
def rowBcc : Row := ⟨0x90, .bcc, .relative, 2, 2, false⟩
def rowStaIndy : Row := ⟨0x91, .sta, .indirectY, 2, 6, false⟩
def rowStyZpx : Row := ⟨0x94, .sty, .zeroPageX, 2, 4, false⟩
def rowStaZpx : Row := ⟨0x95, .sta, .zeroPageX, 2, 4, false⟩
def rowStxZpy : Row := ⟨0x96, .stx, .zeroPageY, 2, 4, false⟩
def rowTya : Row := ⟨0x98, .tya, .implied, 1, 2, false⟩
def rowStaAbsy : Row := ⟨0x99, .sta, .absoluteY, 3, 5, false⟩
def rowTxs : Row := ⟨0x9A, .txs, .implied, 1, 2, false⟩
def rowStaAbsx : Row := ⟨0x9D, .sta, .absoluteX, 3, 5, false⟩
def rowLdyImm : Row := ⟨0xA0, .ldy, .immediate, 2, 2, false⟩
def rowLdaIndx : Row := ⟨0xA1, .lda, .indirectX, 2, 6, false⟩
def rowLdxImm : Row := ⟨0xA2, .ldx, .immediate, 2, 2, false⟩
def rowLdyZp : Row := ⟨0xA4, .ldy, .zeroPage, 2, 3, false⟩
def rowLdaZp : Row := ⟨0xA5, .lda, .zeroPage, 2, 3, false⟩
def rowLdxZp : Row := ⟨0xA6, .ldx, .zeroPage, 2, 3, false⟩
def rowTay : Row := ⟨0xA8, .tay, .implied, 1, 2, false⟩
def rowLdaImm : Row := ⟨0xA9, .lda, .immediate, 2, 2, false⟩
def rowTax : Row := ⟨0xAA, .tax, .implied, 1, 2, false⟩
def rowLdyAbs : Row := ⟨0xAC, .ldy, .absolute, 3, 4, false⟩
def rowLdaAbs : Row := ⟨0xAD, .lda, .absolute, 3, 4, false⟩
def rowLdxAbs : Row := ⟨0xAE, .ldx, .absolute, 3, 4, false⟩
def rowBcs : Row := ⟨0xB0, .bcs, .relative, 2, 2, false⟩
def rowLdaIndy : Row := ⟨0xB1, .lda, .indirectY, 2, 5, true⟩
def rowLdyZpx : Row := ⟨0xB4, .ldy, .zeroPageX, 2, 4, false⟩
def rowLdaZpx : Row := ⟨0xB5, .lda, .zeroPageX, 2, 4, false⟩
def rowLdxZpy : Row := ⟨0xB6, .ldx, .zeroPageY, 2, 4, false⟩
def rowClv : Row := ⟨0xB8, .clv, .implied, 1, 2, false⟩
def rowLdaAbsy : Row := ⟨0xB9, .lda, .absoluteY, 3, 4, true⟩
def rowTsx : Row := ⟨0xBA, .tsx, .implied, 1, 2, false⟩
def rowLdyAbsx : Row := ⟨0xBC, .ldy, .absoluteX, 3, 4, true⟩
def rowLdaAbsx : Row := ⟨0xBD, .lda, .absoluteX, 3, 4, true⟩
def rowLdxAbsy : Row := ⟨0xBE, .ldx, .absoluteY, 3, 4, true⟩
def rowCpyImm : Row := ⟨0xC0, .cpy, .immediate, 2, 2, false⟩
def rowCmpIndx : Row := ⟨0xC1, .cmp, .indirectX, 2, 6, false⟩
def rowCpyZp : Row := ⟨0xC4, .cpy, .zeroPage, 2, 3, false⟩
def rowCmpZp : Row := ⟨0xC5, .cmp, .zeroPage, 2, 3, false⟩
def rowDecZp : Row := ⟨0xC6, .dec, .zeroPage, 2, 5, false⟩
def rowIny : Row := ⟨0xC8, .iny, .implied, 1, 2, false⟩
def rowCmpImm : Row := ⟨0xC9, .cmp, .immediate, 2, 2, false⟩
def rowDex : Row := ⟨0xCA, .dex, .implied, 1, 2, false⟩
def rowCpyAbs : Row := ⟨0xCC, .cpy, .absolute, 3, 4, false⟩
def rowCmpAbs : Row := ⟨0xCD, .cmp, .absolute, 3, 4, false⟩
def rowDecAbs : Row := ⟨0xCE, .dec, .absolute, 3, 6, false⟩
def rowBne : Row := ⟨0xD0, .bne, .relative, 2, 2, false⟩
def rowCmpIndy : Row := ⟨0xD1, .cmp, .indirectY, 2, 5, true⟩
def rowCmpZpx : Row := ⟨0xD5, .cmp, .zeroPageX, 2, 4, false⟩
def rowDecZpx : Row := ⟨0xD6, .dec, .zeroPageX, 2, 6, false⟩
def rowCld : Row := ⟨0xD8, .cld, .implied, 1, 2, false⟩
def rowCmpAbsy : Row := ⟨0xD9, .cmp, .absoluteY, 3, 4, true⟩
def rowCmpAbsx : Row := ⟨0xDD, .cmp, .absoluteX, 3, 4, true⟩
def rowDecAbsx : Row := ⟨0xDE, .dec, .absoluteX, 3, 7, false⟩
def rowCpxImm : Row := ⟨0xE0, .cpx, .immediate, 2, 2, false⟩
def rowSbcIndx : Row := ⟨0xE1, .sbc, .indirectX, 2, 6, false⟩
def rowCpxZp : Row := ⟨0xE4, .cpx, .zeroPage, 2, 3, false⟩
def rowSbcZp : Row := ⟨0xE5, .sbc, .zeroPage, 2, 3, false⟩
def rowIncZp : Row := ⟨0xE6, .inc, .zeroPage, 2, 5, false⟩
def rowInx : Row := ⟨0xE8, .inx, .implied, 1, 2, false⟩
def rowSbcImm : Row := ⟨0xE9, .sbc, .immediate, 2, 2, false⟩
def rowNop : Row := ⟨0xEA, .nop, .implied, 1, 2, false⟩
def rowCpxAbs : Row := ⟨0xEC, .cpx, .absolute, 3, 4, false⟩
def rowSbcAbs : Row := ⟨0xED, .sbc, .absolute, 3, 4, false⟩
def rowIncAbs : Row := ⟨0xEE, .inc, .absolute, 3, 6, false⟩
def rowBeq : Row := ⟨0xF0, .beq, .relative, 2, 2, false⟩
def rowSbcIndy : Row := ⟨0xF1, .sbc, .indirectY, 2, 5, true⟩
def rowSbcZpx : Row := ⟨0xF5, .sbc, .zeroPageX, 2, 4, false⟩
def rowIncZpx : Row := ⟨0xF6, .inc, .zeroPageX, 2, 6, false⟩
def rowSed : Row := ⟨0xF8, .sed, .implied, 1, 2, false⟩
def rowSbcAbsy : Row := ⟨0xF9, .sbc, .absoluteY, 3, 4, true⟩
def rowSbcAbsx : Row := ⟨0xFD, .sbc, .absoluteX, 3, 4, true⟩
def rowIncAbsx : Row := ⟨0xFE, .inc, .absoluteX, 3, 7, false⟩

/-- The legal rows, sorted by opcode as in R55, one line for each high nibble. -/
def opcodeTable : List Row :=
  [rowBrk, rowOraIndx, rowOraZp, rowAslZp, rowPhp, rowOraImm, rowAslAcc, rowOraAbs, rowAslAbs] ++
  [rowBpl, rowOraIndy, rowOraZpx, rowAslZpx, rowClc, rowOraAbsy, rowOraAbsx, rowAslAbsx] ++
  [rowJsr, rowAndIndx, rowBitZp, rowAndZp, rowRolZp, rowPlp, rowAndImm, rowRolAcc, rowBitAbs, rowAndAbs, rowRolAbs] ++
  [rowBmi, rowAndIndy, rowAndZpx, rowRolZpx, rowSec, rowAndAbsy, rowAndAbsx, rowRolAbsx] ++
  [rowRti, rowEorIndx, rowEorZp, rowLsrZp, rowPha, rowEorImm, rowLsrAcc, rowJmpAbs, rowEorAbs, rowLsrAbs] ++
  [rowBvc, rowEorIndy, rowEorZpx, rowLsrZpx, rowCli, rowEorAbsy, rowEorAbsx, rowLsrAbsx] ++
  [rowRts, rowAdcIndx, rowAdcZp, rowRorZp, rowPla, rowAdcImm, rowRorAcc, rowJmpInd, rowAdcAbs, rowRorAbs] ++
  [rowBvs, rowAdcIndy, rowAdcZpx, rowRorZpx, rowSei, rowAdcAbsy, rowAdcAbsx, rowRorAbsx] ++
  [rowStaIndx, rowStyZp, rowStaZp, rowStxZp, rowDey, rowTxa, rowStyAbs, rowStaAbs, rowStxAbs] ++
  [rowBcc, rowStaIndy, rowStyZpx, rowStaZpx, rowStxZpy, rowTya, rowStaAbsy, rowTxs, rowStaAbsx] ++
  [rowLdyImm, rowLdaIndx, rowLdxImm, rowLdyZp, rowLdaZp, rowLdxZp, rowTay, rowLdaImm, rowTax, rowLdyAbs, rowLdaAbs, rowLdxAbs] ++
  [rowBcs, rowLdaIndy, rowLdyZpx, rowLdaZpx, rowLdxZpy, rowClv, rowLdaAbsy, rowTsx, rowLdyAbsx, rowLdaAbsx, rowLdxAbsy] ++
  [rowCpyImm, rowCmpIndx, rowCpyZp, rowCmpZp, rowDecZp, rowIny, rowCmpImm, rowDex, rowCpyAbs, rowCmpAbs, rowDecAbs] ++
  [rowBne, rowCmpIndy, rowCmpZpx, rowDecZpx, rowCld, rowCmpAbsy, rowCmpAbsx, rowDecAbsx] ++
  [rowCpxImm, rowSbcIndx, rowCpxZp, rowSbcZp, rowIncZp, rowInx, rowSbcImm, rowNop, rowCpxAbs, rowSbcAbs, rowIncAbs] ++
  [rowBeq, rowSbcIndy, rowSbcZpx, rowIncZpx, rowSed, rowSbcAbsy, rowSbcAbsx, rowIncAbsx]

/-- `table[op]` of R54: `none` is the table's `Illegal`. -/
def lookup (op : Byte) : Option Row := opcodeTable.find? (fun r => r.opcode == op)

/-- The row of R55 an instruction stands for; an illegal byte value has none. -/
def Instr.row : Instr → Option Row
  | .ldaIndx _ => some rowLdaIndx
  | .ldaZp _ => some rowLdaZp
  | .ldaImm _ => some rowLdaImm
  | .ldaAbs _ => some rowLdaAbs
  | .ldaIndy _ => some rowLdaIndy
  | .ldaZpx _ => some rowLdaZpx
  | .ldaAbsy _ => some rowLdaAbsy
  | .ldaAbsx _ => some rowLdaAbsx
  | .ldxImm _ => some rowLdxImm
  | .ldxZp _ => some rowLdxZp
  | .ldxAbs _ => some rowLdxAbs
  | .ldxZpy _ => some rowLdxZpy
  | .ldxAbsy _ => some rowLdxAbsy
  | .ldyImm _ => some rowLdyImm
  | .ldyZp _ => some rowLdyZp
  | .ldyAbs _ => some rowLdyAbs
  | .ldyZpx _ => some rowLdyZpx
  | .ldyAbsx _ => some rowLdyAbsx
  | .staIndx _ => some rowStaIndx
  | .staZp _ => some rowStaZp
  | .staAbs _ => some rowStaAbs
  | .staIndy _ => some rowStaIndy
  | .staZpx _ => some rowStaZpx
  | .staAbsy _ => some rowStaAbsy
  | .staAbsx _ => some rowStaAbsx
  | .stxZp _ => some rowStxZp
  | .stxAbs _ => some rowStxAbs
  | .stxZpy _ => some rowStxZpy
  | .styZp _ => some rowStyZp
  | .styAbs _ => some rowStyAbs
  | .styZpx _ => some rowStyZpx
  | .adcIndx _ => some rowAdcIndx
  | .adcZp _ => some rowAdcZp
  | .adcImm _ => some rowAdcImm
  | .adcAbs _ => some rowAdcAbs
  | .adcIndy _ => some rowAdcIndy
  | .adcZpx _ => some rowAdcZpx
  | .adcAbsy _ => some rowAdcAbsy
  | .adcAbsx _ => some rowAdcAbsx
  | .sbcIndx _ => some rowSbcIndx
  | .sbcZp _ => some rowSbcZp
  | .sbcImm _ => some rowSbcImm
  | .sbcAbs _ => some rowSbcAbs
  | .sbcIndy _ => some rowSbcIndy
  | .sbcZpx _ => some rowSbcZpx
  | .sbcAbsy _ => some rowSbcAbsy
  | .sbcAbsx _ => some rowSbcAbsx
  | .cmpIndx _ => some rowCmpIndx
  | .cmpZp _ => some rowCmpZp
  | .cmpImm _ => some rowCmpImm
  | .cmpAbs _ => some rowCmpAbs
  | .cmpIndy _ => some rowCmpIndy
  | .cmpZpx _ => some rowCmpZpx
  | .cmpAbsy _ => some rowCmpAbsy
  | .cmpAbsx _ => some rowCmpAbsx
  | .cpxImm _ => some rowCpxImm
  | .cpxZp _ => some rowCpxZp
  | .cpxAbs _ => some rowCpxAbs
  | .cpyImm _ => some rowCpyImm
  | .cpyZp _ => some rowCpyZp
  | .cpyAbs _ => some rowCpyAbs
  | .andIndx _ => some rowAndIndx
  | .andZp _ => some rowAndZp
  | .andImm _ => some rowAndImm
  | .andAbs _ => some rowAndAbs
  | .andIndy _ => some rowAndIndy
  | .andZpx _ => some rowAndZpx
  | .andAbsy _ => some rowAndAbsy
  | .andAbsx _ => some rowAndAbsx
  | .oraIndx _ => some rowOraIndx
  | .oraZp _ => some rowOraZp
  | .oraImm _ => some rowOraImm
  | .oraAbs _ => some rowOraAbs
  | .oraIndy _ => some rowOraIndy
  | .oraZpx _ => some rowOraZpx
  | .oraAbsy _ => some rowOraAbsy
  | .oraAbsx _ => some rowOraAbsx
  | .eorIndx _ => some rowEorIndx
  | .eorZp _ => some rowEorZp
  | .eorImm _ => some rowEorImm
  | .eorAbs _ => some rowEorAbs
  | .eorIndy _ => some rowEorIndy
  | .eorZpx _ => some rowEorZpx
  | .eorAbsy _ => some rowEorAbsy
  | .eorAbsx _ => some rowEorAbsx
  | .bitZp _ => some rowBitZp
  | .bitAbs _ => some rowBitAbs
  | .aslZp _ => some rowAslZp
  | .aslAcc => some rowAslAcc
  | .aslAbs _ => some rowAslAbs
  | .aslZpx _ => some rowAslZpx
  | .aslAbsx _ => some rowAslAbsx
  | .lsrZp _ => some rowLsrZp
  | .lsrAcc => some rowLsrAcc
  | .lsrAbs _ => some rowLsrAbs
  | .lsrZpx _ => some rowLsrZpx
  | .lsrAbsx _ => some rowLsrAbsx
  | .rolZp _ => some rowRolZp
  | .rolAcc => some rowRolAcc
  | .rolAbs _ => some rowRolAbs
  | .rolZpx _ => some rowRolZpx
  | .rolAbsx _ => some rowRolAbsx
  | .rorZp _ => some rowRorZp
  | .rorAcc => some rowRorAcc
  | .rorAbs _ => some rowRorAbs
  | .rorZpx _ => some rowRorZpx
  | .rorAbsx _ => some rowRorAbsx
  | .incZp _ => some rowIncZp
  | .incAbs _ => some rowIncAbs
  | .incZpx _ => some rowIncZpx
  | .incAbsx _ => some rowIncAbsx
  | .decZp _ => some rowDecZp
  | .decAbs _ => some rowDecAbs
  | .decZpx _ => some rowDecZpx
  | .decAbsx _ => some rowDecAbsx
  | .inx => some rowInx
  | .iny => some rowIny
  | .dex => some rowDex
  | .dey => some rowDey
  | .bcc _ => some rowBcc
  | .bcs _ => some rowBcs
  | .beq _ => some rowBeq
  | .bne _ => some rowBne
  | .bmi _ => some rowBmi
  | .bpl _ => some rowBpl
  | .bvc _ => some rowBvc
  | .bvs _ => some rowBvs
  | .jmpAbs _ => some rowJmpAbs
  | .jmpInd _ => some rowJmpInd
  | .jsr _ => some rowJsr
  | .rts => some rowRts
  | .brk => some rowBrk
  | .rti => some rowRti
  | .nop => some rowNop
  | .pha => some rowPha
  | .php => some rowPhp
  | .pla => some rowPla
  | .plp => some rowPlp
  | .clc => some rowClc
  | .sec => some rowSec
  | .cli => some rowCli
  | .sei => some rowSei
  | .clv => some rowClv
  | .cld => some rowCld
  | .sed => some rowSed
  | .tax => some rowTax
  | .tay => some rowTay
  | .txa => some rowTxa
  | .tya => some rowTya
  | .tsx => some rowTsx
  | .txs => some rowTxs
  | .illegal _ => none

/-- The operand of an instruction: its row's mode with the operand bytes. -/
def Instr.operand : Instr → Operand
  | .ldaIndx z => .indirectX z
  | .ldaZp z => .zeroPage z
  | .ldaImm v => .immediate v
  | .ldaAbs a => .absolute a
  | .ldaIndy z => .indirectY z
  | .ldaZpx z => .zeroPageX z
  | .ldaAbsy a => .absoluteY a
  | .ldaAbsx a => .absoluteX a
  | .ldxImm v => .immediate v
  | .ldxZp z => .zeroPage z
  | .ldxAbs a => .absolute a
  | .ldxZpy z => .zeroPageY z
  | .ldxAbsy a => .absoluteY a
  | .ldyImm v => .immediate v
  | .ldyZp z => .zeroPage z
  | .ldyAbs a => .absolute a
  | .ldyZpx z => .zeroPageX z
  | .ldyAbsx a => .absoluteX a
  | .staIndx z => .indirectX z
  | .staZp z => .zeroPage z
  | .staAbs a => .absolute a
  | .staIndy z => .indirectY z
  | .staZpx z => .zeroPageX z
  | .staAbsy a => .absoluteY a
  | .staAbsx a => .absoluteX a
  | .stxZp z => .zeroPage z
  | .stxAbs a => .absolute a
  | .stxZpy z => .zeroPageY z
  | .styZp z => .zeroPage z
  | .styAbs a => .absolute a
  | .styZpx z => .zeroPageX z
  | .adcIndx z => .indirectX z
  | .adcZp z => .zeroPage z
  | .adcImm v => .immediate v
  | .adcAbs a => .absolute a
  | .adcIndy z => .indirectY z
  | .adcZpx z => .zeroPageX z
  | .adcAbsy a => .absoluteY a
  | .adcAbsx a => .absoluteX a
  | .sbcIndx z => .indirectX z
  | .sbcZp z => .zeroPage z
  | .sbcImm v => .immediate v
  | .sbcAbs a => .absolute a
  | .sbcIndy z => .indirectY z
  | .sbcZpx z => .zeroPageX z
  | .sbcAbsy a => .absoluteY a
  | .sbcAbsx a => .absoluteX a
  | .cmpIndx z => .indirectX z
  | .cmpZp z => .zeroPage z
  | .cmpImm v => .immediate v
  | .cmpAbs a => .absolute a
  | .cmpIndy z => .indirectY z
  | .cmpZpx z => .zeroPageX z
  | .cmpAbsy a => .absoluteY a
  | .cmpAbsx a => .absoluteX a
  | .cpxImm v => .immediate v
  | .cpxZp z => .zeroPage z
  | .cpxAbs a => .absolute a
  | .cpyImm v => .immediate v
  | .cpyZp z => .zeroPage z
  | .cpyAbs a => .absolute a
  | .andIndx z => .indirectX z
  | .andZp z => .zeroPage z
  | .andImm v => .immediate v
  | .andAbs a => .absolute a
  | .andIndy z => .indirectY z
  | .andZpx z => .zeroPageX z
  | .andAbsy a => .absoluteY a
  | .andAbsx a => .absoluteX a
  | .oraIndx z => .indirectX z
  | .oraZp z => .zeroPage z
  | .oraImm v => .immediate v
  | .oraAbs a => .absolute a
  | .oraIndy z => .indirectY z
  | .oraZpx z => .zeroPageX z
  | .oraAbsy a => .absoluteY a
  | .oraAbsx a => .absoluteX a
  | .eorIndx z => .indirectX z
  | .eorZp z => .zeroPage z
  | .eorImm v => .immediate v
  | .eorAbs a => .absolute a
  | .eorIndy z => .indirectY z
  | .eorZpx z => .zeroPageX z
  | .eorAbsy a => .absoluteY a
  | .eorAbsx a => .absoluteX a
  | .bitZp z => .zeroPage z
  | .bitAbs a => .absolute a
  | .aslZp z => .zeroPage z
  | .aslAcc => .accumulator
  | .aslAbs a => .absolute a
  | .aslZpx z => .zeroPageX z
  | .aslAbsx a => .absoluteX a
  | .lsrZp z => .zeroPage z
  | .lsrAcc => .accumulator
  | .lsrAbs a => .absolute a
  | .lsrZpx z => .zeroPageX z
  | .lsrAbsx a => .absoluteX a
  | .rolZp z => .zeroPage z
  | .rolAcc => .accumulator
  | .rolAbs a => .absolute a
  | .rolZpx z => .zeroPageX z
  | .rolAbsx a => .absoluteX a
  | .rorZp z => .zeroPage z
  | .rorAcc => .accumulator
  | .rorAbs a => .absolute a
  | .rorZpx z => .zeroPageX z
  | .rorAbsx a => .absoluteX a
  | .incZp z => .zeroPage z
  | .incAbs a => .absolute a
  | .incZpx z => .zeroPageX z
  | .incAbsx a => .absoluteX a
  | .decZp z => .zeroPage z
  | .decAbs a => .absolute a
  | .decZpx z => .zeroPageX z
  | .decAbsx a => .absoluteX a
  | .inx => .implied
  | .iny => .implied
  | .dex => .implied
  | .dey => .implied
  | .bcc d => .relative d
  | .bcs d => .relative d
  | .beq d => .relative d
  | .bne d => .relative d
  | .bmi d => .relative d
  | .bpl d => .relative d
  | .bvc d => .relative d
  | .bvs d => .relative d
  | .jmpAbs a => .absolute a
  | .jmpInd a => .indirect a
  | .jsr a => .absolute a
  | .rts => .implied
  | .brk => .implied
  | .rti => .implied
  | .nop => .implied
  | .pha => .implied
  | .php => .implied
  | .pla => .implied
  | .plp => .implied
  | .clc => .implied
  | .sec => .implied
  | .cli => .implied
  | .sei => .implied
  | .clv => .implied
  | .cld => .implied
  | .sed => .implied
  | .tax => .implied
  | .tay => .implied
  | .txa => .implied
  | .tya => .implied
  | .tsx => .implied
  | .txs => .implied
  | .illegal _ => .implied

/-- The mode of an operand. -/
def Operand.mode : Operand → Mode
  | .implied => .implied
  | .accumulator => .accumulator
  | .immediate _ => .immediate
  | .zeroPage _ => .zeroPage
  | .zeroPageX _ => .zeroPageX
  | .zeroPageY _ => .zeroPageY
  | .absolute _ => .absolute
  | .absoluteX _ => .absoluteX
  | .absoluteY _ => .absoluteY
  | .indirect _ => .indirect
  | .indirectX _ => .indirectX
  | .indirectY _ => .indirectY
  | .relative _ => .relative

/-- The operand bytes in memory order (R51, R53): an address has its low byte first. -/
def Operand.bytes : Operand → List Byte
  | .implied => []
  | .accumulator => []
  | .immediate v => [v]
  | .zeroPage z => [z]
  | .zeroPageX z => [z]
  | .zeroPageY z => [z]
  | .absolute a => [loByte a, hiByte a]
  | .absoluteX a => [loByte a, hiByte a]
  | .absoluteY a => [loByte a, hiByte a]
  | .indirect a => [loByte a, hiByte a]
  | .indirectX z => [z]
  | .indirectY z => [z]
  | .relative d => [d]

/-! ## Decoding -/

/-- The instruction at an opcode byte followed by two more bytes, of which it uses those its length covers (R52).
Total: a byte outside R55 gives `illegal`, by name, and falls through to no neighbour. -/
def decode (op b1 b2 : Byte) : Instr :=
  match op with
  | 0x00#8 => .brk
  | 0x01#8 => .oraIndx b1
  | 0x05#8 => .oraZp b1
  | 0x06#8 => .aslZp b1
  | 0x08#8 => .php
  | 0x09#8 => .oraImm b1
  | 0x0A#8 => .aslAcc
  | 0x0D#8 => .oraAbs (wordOf b2 b1)
  | 0x0E#8 => .aslAbs (wordOf b2 b1)
  | 0x10#8 => .bpl b1
  | 0x11#8 => .oraIndy b1
  | 0x15#8 => .oraZpx b1
  | 0x16#8 => .aslZpx b1
  | 0x18#8 => .clc
  | 0x19#8 => .oraAbsy (wordOf b2 b1)
  | 0x1D#8 => .oraAbsx (wordOf b2 b1)
  | 0x1E#8 => .aslAbsx (wordOf b2 b1)
  | 0x20#8 => .jsr (wordOf b2 b1)
  | 0x21#8 => .andIndx b1
  | 0x24#8 => .bitZp b1
  | 0x25#8 => .andZp b1
  | 0x26#8 => .rolZp b1
  | 0x28#8 => .plp
  | 0x29#8 => .andImm b1
  | 0x2A#8 => .rolAcc
  | 0x2C#8 => .bitAbs (wordOf b2 b1)
  | 0x2D#8 => .andAbs (wordOf b2 b1)
  | 0x2E#8 => .rolAbs (wordOf b2 b1)
  | 0x30#8 => .bmi b1
  | 0x31#8 => .andIndy b1
  | 0x35#8 => .andZpx b1
  | 0x36#8 => .rolZpx b1
  | 0x38#8 => .sec
  | 0x39#8 => .andAbsy (wordOf b2 b1)
  | 0x3D#8 => .andAbsx (wordOf b2 b1)
  | 0x3E#8 => .rolAbsx (wordOf b2 b1)
  | 0x40#8 => .rti
  | 0x41#8 => .eorIndx b1
  | 0x45#8 => .eorZp b1
  | 0x46#8 => .lsrZp b1
  | 0x48#8 => .pha
  | 0x49#8 => .eorImm b1
  | 0x4A#8 => .lsrAcc
  | 0x4C#8 => .jmpAbs (wordOf b2 b1)
  | 0x4D#8 => .eorAbs (wordOf b2 b1)
  | 0x4E#8 => .lsrAbs (wordOf b2 b1)
  | 0x50#8 => .bvc b1
  | 0x51#8 => .eorIndy b1
  | 0x55#8 => .eorZpx b1
  | 0x56#8 => .lsrZpx b1
  | 0x58#8 => .cli
  | 0x59#8 => .eorAbsy (wordOf b2 b1)
  | 0x5D#8 => .eorAbsx (wordOf b2 b1)
  | 0x5E#8 => .lsrAbsx (wordOf b2 b1)
  | 0x60#8 => .rts
  | 0x61#8 => .adcIndx b1
  | 0x65#8 => .adcZp b1
  | 0x66#8 => .rorZp b1
  | 0x68#8 => .pla
  | 0x69#8 => .adcImm b1
  | 0x6A#8 => .rorAcc
  | 0x6C#8 => .jmpInd (wordOf b2 b1)
  | 0x6D#8 => .adcAbs (wordOf b2 b1)
  | 0x6E#8 => .rorAbs (wordOf b2 b1)
  | 0x70#8 => .bvs b1
  | 0x71#8 => .adcIndy b1
  | 0x75#8 => .adcZpx b1
  | 0x76#8 => .rorZpx b1
  | 0x78#8 => .sei
  | 0x79#8 => .adcAbsy (wordOf b2 b1)
  | 0x7D#8 => .adcAbsx (wordOf b2 b1)
  | 0x7E#8 => .rorAbsx (wordOf b2 b1)
  | 0x81#8 => .staIndx b1
  | 0x84#8 => .styZp b1
  | 0x85#8 => .staZp b1
  | 0x86#8 => .stxZp b1
  | 0x88#8 => .dey
  | 0x8A#8 => .txa
  | 0x8C#8 => .styAbs (wordOf b2 b1)
  | 0x8D#8 => .staAbs (wordOf b2 b1)
  | 0x8E#8 => .stxAbs (wordOf b2 b1)
  | 0x90#8 => .bcc b1
  | 0x91#8 => .staIndy b1
  | 0x94#8 => .styZpx b1
  | 0x95#8 => .staZpx b1
  | 0x96#8 => .stxZpy b1
  | 0x98#8 => .tya
  | 0x99#8 => .staAbsy (wordOf b2 b1)
  | 0x9A#8 => .txs
  | 0x9D#8 => .staAbsx (wordOf b2 b1)
  | 0xA0#8 => .ldyImm b1
  | 0xA1#8 => .ldaIndx b1
  | 0xA2#8 => .ldxImm b1
  | 0xA4#8 => .ldyZp b1
  | 0xA5#8 => .ldaZp b1
  | 0xA6#8 => .ldxZp b1
  | 0xA8#8 => .tay
  | 0xA9#8 => .ldaImm b1
  | 0xAA#8 => .tax
  | 0xAC#8 => .ldyAbs (wordOf b2 b1)
  | 0xAD#8 => .ldaAbs (wordOf b2 b1)
  | 0xAE#8 => .ldxAbs (wordOf b2 b1)
  | 0xB0#8 => .bcs b1
  | 0xB1#8 => .ldaIndy b1
  | 0xB4#8 => .ldyZpx b1
  | 0xB5#8 => .ldaZpx b1
  | 0xB6#8 => .ldxZpy b1
  | 0xB8#8 => .clv
  | 0xB9#8 => .ldaAbsy (wordOf b2 b1)
  | 0xBA#8 => .tsx
  | 0xBC#8 => .ldyAbsx (wordOf b2 b1)
  | 0xBD#8 => .ldaAbsx (wordOf b2 b1)
  | 0xBE#8 => .ldxAbsy (wordOf b2 b1)
  | 0xC0#8 => .cpyImm b1
  | 0xC1#8 => .cmpIndx b1
  | 0xC4#8 => .cpyZp b1
  | 0xC5#8 => .cmpZp b1
  | 0xC6#8 => .decZp b1
  | 0xC8#8 => .iny
  | 0xC9#8 => .cmpImm b1
  | 0xCA#8 => .dex
  | 0xCC#8 => .cpyAbs (wordOf b2 b1)
  | 0xCD#8 => .cmpAbs (wordOf b2 b1)
  | 0xCE#8 => .decAbs (wordOf b2 b1)
  | 0xD0#8 => .bne b1
  | 0xD1#8 => .cmpIndy b1
  | 0xD5#8 => .cmpZpx b1
  | 0xD6#8 => .decZpx b1
  | 0xD8#8 => .cld
  | 0xD9#8 => .cmpAbsy (wordOf b2 b1)
  | 0xDD#8 => .cmpAbsx (wordOf b2 b1)
  | 0xDE#8 => .decAbsx (wordOf b2 b1)
  | 0xE0#8 => .cpxImm b1
  | 0xE1#8 => .sbcIndx b1
  | 0xE4#8 => .cpxZp b1
  | 0xE5#8 => .sbcZp b1
  | 0xE6#8 => .incZp b1
  | 0xE8#8 => .inx
  | 0xE9#8 => .sbcImm b1
  | 0xEA#8 => .nop
  | 0xEC#8 => .cpxAbs (wordOf b2 b1)
  | 0xED#8 => .sbcAbs (wordOf b2 b1)
  | 0xEE#8 => .incAbs (wordOf b2 b1)
  | 0xF0#8 => .beq b1
  | 0xF1#8 => .sbcIndy b1
  | 0xF5#8 => .sbcZpx b1
  | 0xF6#8 => .incZpx b1
  | 0xF8#8 => .sed
  | 0xF9#8 => .sbcAbsy (wordOf b2 b1)
  | 0xFD#8 => .sbcAbsx (wordOf b2 b1)
  | 0xFE#8 => .incAbsx (wordOf b2 b1)
  | _ => .illegal op

/-- The length of an instruction in bytes: that of its row; an illegal byte has no length (R52) and only itself is read. -/
def Instr.length (i : Instr) : Nat := match i.row with
  | some r => r.length
  | none => 1

/-- Decoding a list of bytes: the instruction at its head and the bytes after it; `none` where the list ends inside
the instruction. -/
def decodeBytes : List Byte → Option (Instr × List Byte)
  | [] => none
  | op :: rest =>
    let i := decode op (rest.getD 0 0) (rest.getD 1 0)
    if i.length ≤ rest.length + 1 then some (i, rest.drop (i.length - 1)) else none

/-- The bytes of an instruction: the opcode of its row, then its operand bytes. -/
def encode (i : Instr) : List Byte := match i with
  | .illegal op => [op]
  | _ => match i.row with
    | some r => r.opcode :: i.operand.bytes
    | none => []

/-- Byte `k` of an opcode-table word: bit 0 of the word is bit 0 of the first byte, and bits from `nbits` up are 0. -/
def tableByte (nbits w k : Nat) : Byte := BitVec.ofNat 8 (w % 2 ^ nbits / 2 ^ (8 * k))

/-- What the decoder reads from an opcode-table word, laid out as the hardware stores it, first byte first. -/
def decodeTableWord (nbits w : Nat) : Option Instr :=
  (decodeBytes [tableByte nbits w 0, tableByte nbits w 1, tableByte nbits w 2]).map Prod.fst

end Sys2Proof
end

