-- ==== Sys2Proof/Config.lean ====
section
/-! DEFINITION. What is fixed from outside the instruction rules: the parameters of 00_scope.md R7 and R8, and the
entry point of the constant reset state. The machine has no free value: 93_implementation_defined.md §1 gives every
open point one fixed treatment. -/

namespace Sys2Proof.Config

/-- What an address that memory does not list reads as.
DESIGN CHOICE (log 1), unsafe: R8 leaves INITIAL_MEMORY open. The cells of `State.mem` can spell out any
INITIAL_MEMORY over this default, so that a statement about every state is about every INITIAL_MEMORY;
only the constant `State.reset`, which lists nothing, stands for one of them. -/
def initialByte : Byte := 0x00

/-- The `entry` argument of the constant `State.reset`.
DESIGN CHOICE (log 2), unsafe: R171 takes the entry point from the host. -/
def resetEntry : Word := 0x8000

/-- The default of the session parameter BRK_HANDLER_INSTALLED (R7). -/
def brkHandlerInstalled : Bool := false

end Sys2Proof.Config
end

