-- ==== Sys2Proof/Machine/State.lean ====
section
/-! DEFINITION. The state of a CPU instance, 10_state.md R13, as plain data; the fault records of 60_exceptions.md R155,
the run state of R30, and the state after reset, 70_reset_and_hazards.md R171. -/

namespace Sys2Proof.Machine

/-- The step faults of R155, each with its record. A step that raises one ANSWERS A NEXT STATE whose `run` is
`faulted` with that record (R159, log 5): the machine described by the spec goes on holding its state and can be
inspected and reset. No step answers `Host.Outcome.fault`. -/
inductive Fault where
  /-- Code 1. Raised by the meaning of `illegal`: the decode stage met one of the 105 byte values of R56 (R76, R156).
  Safe: the spec's own outcome, with the spec's record. -/
  | illegalOpcode (opcode : Byte) (pc : Word)
  /-- Code 2. Raised by the shared execute stage when a rule asks an operand or an address of a mode that has none
  (R69, R157). Safe: the spec's own outcome; no row of the table reaches it. -/
  | invalidAddressing (opcode : Byte) (pc : Word) (mode : Mode)
  deriving DecidableEq, Repr

/-- The numeric codes of R155. -/
def Fault.code : Fault → Nat
  | .illegalOpcode .. => 1
  | .invalidAddressing .. => 2

/-- The host-call rejection LoadOutOfRange of R155 and R158, which is no step fault. -/
structure LoadOutOfRange where
  address : Word
  length  : Nat
  deriving DecidableEq, Repr

/-- Its code in R155. -/
def LoadOutOfRange.code (_ : LoadOutOfRange) : Nat := 3

/-- Why a step is refused. -/
inductive Refusal where
  /-- `Refused(NotRunning)` of R74: raised by `step` when `run` is Halted or Faulted. Safe: the spec's own outcome,
  with no state change. -/
  | notRunning
  /-- An instruction with no meaning yet, raised in `exec`'s arm, by mnemonic. Safe. No arm of this model raises it. -/
  | notModelled (mnemonic : String)
  deriving DecidableEq, Repr

/-- The run state of R30. -/
inductive RunState where
  | running
  | halted
  | faulted (f : Fault)
  deriving DecidableEq, Repr

/-- The named bits of the status register P, R19, from bit 0 to bit 7. -/
inductive Flag where
  | c | z | i | d | b | u | v | n
  deriving DecidableEq, Repr

/-- Memory (20_memory.md R33) as the cells that differ from `Config.initialByte`, addresses strictly rising
(`Memory.wf`). -/
abbrev Memory := List Host.Cell

/-- The complete state of R13, and the session parameter of R7. -/
structure State where
  /-- A, the accumulator (R14). -/
  a   : Byte
  /-- X, index register X (R15). -/
  x   : Byte
  /-- Y, index register Y (R16). -/
  y   : Byte
  /-- SP, the offset of the next free byte in the stack page (R17). -/
  sp  : Byte
  /-- PC, the address of the next opcode byte (R18). -/
  pc  : Word
  /-- P, the status register: N V U B D I Z C (R19). -/
  p   : Byte
  /-- The 64 KiB memory (R33). -/
  mem : Memory
  /-- The unbounded cycle counter (R29). -/
  cycles : Nat
  /-- The run state (R30). -/
  run : RunState
  /-- BRK_HANDLER_INSTALLED (R7), fixed for a session: no operation writes it. DESIGN CHOICE (log 4): a field, so that
  a statement about every state covers both values. -/
  brkHandler : Bool
  deriving DecidableEq, Repr

/-- The machine right after `reset(Config.resetEntry)` (R171) with nothing listed in memory. -/
def State.reset : State where
  a := 0x00
  x := 0x00
  y := 0x00
  sp := 0xFD
  pc := Config.resetEntry
  p := 0x24
  mem := []
  cycles := 0
  run := .running
  brkHandler := Config.brkHandlerInstalled

end Sys2Proof.Machine
end

