-- ==== Sys2Proof/Machine/Flags.lean ====
section
/-! DEFINITION. The status register and the ALU: the flag helpers of 40_dispatch.md R86 to R88 and the pure functions
of R89 to R94. -/

namespace Sys2Proof.Machine

/-! ## The status register P -/

/-- The bit position of a flag in P (R19). -/
def Flag.bit : Flag → Nat
  | .c => 0
  | .z => 1
  | .i => 2
  | .d => 3
  | .b => 4
  | .u => 5
  | .v => 6
  | .n => 7

/-- The byte with only that flag's bit set. -/
def Flag.mask (f : Flag) : Byte := 1#8 <<< f.bit

/-- `get(flag)` of R86. -/
def getFlag (p : Byte) (f : Flag) : Bool := p.getLsbD f.bit

/-- `set(flag, b)` of R86: one bit of P; on U it does nothing. -/
def setFlag (p : Byte) (f : Flag) (on : Bool) : Byte :=
  match f with
  | .u => p
  | _ => (p &&& ~~~ f.mask) ||| (if on then f.mask else 0)

/-- `SetZN(v)` of R87. -/
def setZN (p v : Byte) : Byte := setFlag (setFlag p .z (v == 0)) .n v.msb

/-- `PushImage(P)` of R88: B and U set. -/
def pushImage (p : Byte) : Byte := p ||| 0x30

/-- `PullImage(v)` of R88: B cleared, U set. -/
def pullImage (v : Byte) : Byte := (v &&& 0xCF) ||| 0x20

/-! ## The ALU -/

/-- `AddC(a, b, cin)` of R89: the result, the carry out and the signed overflow. Binary for every P (R101). -/
def addC (a b : Byte) (cin : Bool) : Byte × Bool × Bool :=
  let s := a.toNat + b.toNat + cin.toNat
  let r := BitVec.ofNat 8 s
  (r, decide (256 ≤ s), a.msb == b.msb && r.msb != a.msb)

/-- `SubC(a, m, c)` of R90. -/
def subC (a m : Byte) (c : Bool) : Byte × Bool × Bool := addC a (~~~ m) c

/-- The status after `Compare(r, m)` of R91: C, Z and N; no carry in, V untouched. -/
def compareFlags (p r m : Byte) : Byte :=
  setFlag (setFlag (setFlag p .c (decide (m.toNat ≤ r.toNat))) .z (r == m)) .n (r - m).msb

/-- `And(a, m)` of R92. -/
def andB (a m : Byte) : Byte := a &&& m

/-- `Or(a, m)` of R92. -/
def orB (a m : Byte) : Byte := a ||| m

/-- `Xor(a, m)` of R92. -/
def xorB (a m : Byte) : Byte := a ^^^ m

/-- `Asl(v)` of R93. -/
def asl (v : Byte) : Byte × Bool := (v <<< 1, v.getLsbD 7)

/-- `Lsr(v)` of R93. -/
def lsr (v : Byte) : Byte × Bool := (v >>> 1, v.getLsbD 0)

/-- `Rol(v, c)` of R93: the old carry enters at bit 0. -/
def rol (v : Byte) (c : Bool) : Byte × Bool := ((v <<< 1) ||| (if c then 0x01 else 0x00), v.getLsbD 7)

/-- `Ror(v, c)` of R93: the old carry enters at bit 7. -/
def ror (v : Byte) (c : Bool) : Byte × Bool := ((v >>> 1) ||| (if c then 0x80 else 0x00), v.getLsbD 0)

/-- `Inc(v)` of R94. -/
def inc8 (v : Byte) : Byte := v + 1

/-- `Dec(v)` of R94. -/
def dec8 (v : Byte) : Byte := v - 1

end Sys2Proof.Machine
end

