-- ==== Sys2Proof/Machine/Ops.lean ====
section
/-! DEFINITION. The named operations over memory and registers: the access primitives of 20_memory.md R35 to R38, the
zero-page and in-page pointer reads of 30_encoding.md R64 and R67, fetching, the stack primitives of 48_stack.md R136
and R137, raising a fault (60_exceptions.md R159), trap entry (R162) and trap return (R163). -/

namespace Sys2Proof.Machine

/-! ## Memory as canonical data -/

/-- The byte at an address: the first cell that lists it, else the initial byte. -/
def Memory.read : Memory → Nat → Byte
  | [], _ => Config.initialByte
  | (k, v) :: rest, a => if k = a then v else Memory.read rest a

/-- Memory without the cells of one address. -/
def Memory.erase (m : Memory) (a : Nat) : Memory := m.filter (fun c => c.1 != a)

/-- A cell put before the first one with a higher address. -/
def Memory.insert : Memory → Nat → Byte → Memory
  | [], a, v => [(a, v)]
  | (k, w) :: rest, a, v => if a < k then (a, v) :: (k, w) :: rest else (k, w) :: Memory.insert rest a v

/-- Memory with one byte changed, in canonical form: writing the initial byte unlists the address. -/
def Memory.write (m : Memory) (a : Nat) (v : Byte) : Memory :=
  if v = Config.initialByte then m.erase a else (m.erase a).insert a v

/-- The canonical form from address `lo` on: addresses strictly rising, inside the address space of R33, and no cell
equal to what an unlisted address reads as. -/
def Memory.wfFrom : Nat → Memory → Bool
  | _, [] => true
  | lo, (k, v) :: rest =>
    decide (lo ≤ k) && decide (k < 65536) && v != Config.initialByte && Memory.wfFrom (k + 1) rest

/-- The canonical form of memory. -/
def Memory.wf (m : Memory) : Bool := Memory.wfFrom 0 m

/-! ## Access primitives -/

/-- `read8(a)` of R35. -/
def State.read8 (s : State) (a : Word) : Byte := s.mem.read a.toNat

/-- `write8(a, v)` of R36. -/
def State.write8 (s : State) (a : Word) (v : Byte) : State := { s with mem := s.mem.write a.toNat v }

/-- `read16(a)` of R37: low byte first, the second address wraps at 16 bits. -/
def State.read16 (s : State) (a : Word) : Word := wordOf (s.read8 (a + 1)) (s.read8 a)

/-- `write16(a, w)` of R38: used by no instruction; part of the memory's contract. -/
def State.write16 (s : State) (a w : Word) : State := (s.write8 a (loByte w)).write8 (a + 1) (hiByte w)

/-- `zext_16(b)` of R11. -/
def zext16 (b : Byte) : Word := b.setWidth 16

/-- `sext_16(b)` of R11. -/
def sext16 (b : Byte) : Word := b.signExtend 16

/-- `ZpRead16(q)` of R64: both bytes from the zero page, the second offset wraps at 8 bits. -/
def State.zpRead16 (s : State) (q : Byte) : Word := wordOf (s.read8 (zext16 (q + 1))) (s.read8 (zext16 q))

/-- The pointer read of JMP indirect, R67: the high byte stays in the pointer's page. -/
def State.pageRead16 (s : State) (ptr : Word) : Word :=
  wordOf (s.read8 (wordOf (hiByte ptr) (loByte ptr + 1))) (s.read8 ptr)

/-! ## Fetch -/

/-- The instruction at PC: the opcode byte (R75) and the bytes after it, read from memory as it stands (R48), the
addresses wrapping at 16 bits (R18). Reading more bytes than the length is without effect (R39, log 6). -/
def State.fetch (s : State) : Instr := decode (s.read8 s.pc) (s.read8 (s.pc + 1)) (s.read8 (s.pc + 2))

/-- An opcode-table word stored at PC, first byte at PC, three bytes in all. -/
def State.placeWord (s : State) (nbits w : Nat) : State :=
  ((s.write8 s.pc (tableByte nbits w 0)).write8 (s.pc + 1) (tableByte nbits w 1)).write8 (s.pc + 2)
    (tableByte nbits w 2)

/-! ## The stack -/

/-- The address SP names, always in 0x0100 to 0x01FF (R17). -/
def stackAddr (sp : Byte) : Word := 0x0100 + zext16 sp

/-- `Push(v)` of R136. -/
def State.push (s : State) (v : Byte) : State := { s.write8 (stackAddr s.sp) v with sp := s.sp - 1 }

/-- The byte `Pull()` of R137 returns. -/
def State.pulled (s : State) : Byte := s.read8 (stackAddr (s.sp + 1))

/-- The state after `Pull()` of R137. -/
def State.afterPull (s : State) : State := { s with sp := s.sp + 1 }

/-- Two pushes of a 16-bit value, high byte first (R41, R131). -/
def State.pushWord (s : State) (w : Word) : State := (s.push (hiByte w)).push (loByte w)

/-- Two pulls of a 16-bit value, low byte first (R132, R134). -/
def State.pulledWord (s : State) : Word := wordOf s.afterPull.pulled s.pulled

/-! ## Faults, trap entry and trap return -/

/-- Raising a step fault (R159): `run` becomes Faulted with the record; A, X, Y, SP, PC, P, memory and cycles stay as
they were at step start. Sticky: `step` refuses from then on (R74). -/
def State.raiseFault (s : State) (f : Fault) : State := { s with run := .faulted f }

/-- The BRK/IRQ vector of R6 and R44. -/
def brkVector : Word := 0xFFFE

/-- The state after the trap entry of R162 (PC apart): the return address pushed high byte first, then
`PushImage(P)`, then I set. -/
def State.trapEntry (s : State) (ret : Word) : State :=
  let t := (s.pushWord ret).push (pushImage s.p)
  { t with p := setFlag t.p .i true }

/-- Where the trap entry goes: `read16(0xFFFE)`, read before the first push (R47). -/
def State.trapTarget (s : State) : Word := s.read16 brkVector

/-- The state after the trap return of R163 (PC apart): P from the pulled image, SP up by three. -/
def State.trapReturn (s : State) : State := { s.afterPull.afterPull.afterPull with p := pullImage s.pulled }

/-- Where the trap return goes: the pulled word itself, with no increment (R134). -/
def State.trapReturnTarget (s : State) : Word := s.afterPull.pulledWord

end Sys2Proof.Machine
end

