-- ==== Sys2Proof/Machine/Operands.lean ====
section
/-! DEFINITION. The addressing resolver, 30_encoding.md R57 to R70, and the operand helpers, 40_dispatch.md R83 to R85. -/

namespace Sys2Proof.Machine

/-! ## Effective addresses, one function per mode -/

/-- ZeroPage, R60. -/
def eaZeroPage (z : Byte) : Word := zext16 z

/-- ZeroPageX, R61: the sum wraps at 8 bits. -/
def eaZeroPageX (z : Byte) (s : State) : Word := zext16 (z + s.x)

/-- ZeroPageY, R61. -/
def eaZeroPageY (z : Byte) (s : State) : Word := zext16 (z + s.y)

/-- AbsoluteX, R63: the sum wraps at 16 bits. -/
def eaAbsoluteX (base : Word) (s : State) : Word := base + zext16 s.x

/-- AbsoluteY, R63. -/
def eaAbsoluteY (base : Word) (s : State) : Word := base + zext16 s.y

/-- Indirect, R67: the pointer read that stays in the pointer's page. -/
def eaIndirect (ptr : Word) (s : State) : Word := s.pageRead16 ptr

/-- IndirectX, R65: the index is added to the zero-page pointer before it is read. -/
def eaIndirectX (z : Byte) (s : State) : Word := s.zpRead16 (z + s.x)

/-- The base of IndirectY, R66: the pointer read from the zero page. -/
def baseIndirectY (z : Byte) (s : State) : Word := s.zpRead16 z

/-- IndirectY, R66: the index is added to the base at 16 bits. -/
def eaIndirectY (z : Byte) (s : State) : Word := baseIndirectY z s + zext16 s.y

/-- The target of Relative, R70: the displacement counts from the instruction after the branch. -/
def branchTarget (d : Byte) (s : State) : Word := s.pc + 2 + sext16 d

/-- The page-cross flag, R58: the two addresses lie on different pages. -/
def pageCross (base ea : Word) : Bool := hiByte ea != hiByte base

/-! ## The resolver -/

/-- What the resolver returns, R57. `literal v` is Immediate's `Addr(p)` of R59 with the byte at `p` already read
("that location itself, consumed directly as a value"): the decoder has the byte in the instruction. It reads as `v`
and has no address a rule could store to (log 6). -/
inductive Resolved where
  | addr (ea : Word)
  | accumulator
  | none
  | literal (v : Byte)
  deriving DecidableEq, Repr

/-- `resolve` of R57 on a decoded operand: the result and the page-cross flag, which R58 leaves false but for the
three indexed modes and Relative. It only reads. -/
def resolve (o : Operand) (s : State) : Resolved × Bool :=
  match o with
  | .implied => (.none, false)
  | .accumulator => (.accumulator, false)
  | .immediate v => (.literal v, false)
  | .zeroPage z => (.addr (eaZeroPage z), false)
  | .zeroPageX z => (.addr (eaZeroPageX z s), false)
  | .zeroPageY z => (.addr (eaZeroPageY z s), false)
  | .absolute a => (.addr a, false)
  | .absoluteX a => (.addr (eaAbsoluteX a s), pageCross a (eaAbsoluteX a s))
  | .absoluteY a => (.addr (eaAbsoluteY a s), pageCross a (eaAbsoluteY a s))
  | .indirect a => (.addr (eaIndirect a s), false)
  | .indirectX z => (.addr (eaIndirectX z s), false)
  | .indirectY z => (.addr (eaIndirectY z s), pageCross (baseIndirectY z s) (eaIndirectY z s))
  | .relative d => (.addr (branchTarget d s), pageCross (s.pc + 2) (branchTarget d s))

/-! ## Operand helpers; `none` is the InvalidAddressing of R69 -/

/-- `Operand(res)` of R83. -/
def operandOf (res : Resolved) (s : State) : Option Byte :=
  match res with
  | .addr ea => some (s.read8 ea)
  | .accumulator => some s.a
  | .literal v => some v
  | .none => Option.none

/-- `WriteBack(res, v)` of R84. -/
def writeBack (res : Resolved) (v : Byte) (s : State) : Option State :=
  match res with
  | .addr ea => some (s.write8 ea v)
  | .accumulator => some { s with a := v }
  | .literal _ => Option.none
  | .none => Option.none

/-- `EA(res)` of R85. -/
def eaOf (res : Resolved) : Option Word :=
  match res with
  | .addr ea => some ea
  | .accumulator => Option.none
  | .literal _ => Option.none
  | .none => Option.none

end Sys2Proof.Machine
end

