-- ==== Sys2Proof/Machine/Execute.lean ====
section
/-! DEFINITION. The execute, advance and count stages of the step, 40_dispatch.md R78 to R80, shared by every
instruction: a rule says what one instruction kind does; `runRow` applies a rule to one row of the opcode table. -/

namespace Sys2Proof.Machine

/-- What an instruction rule leaves (R78): the state it wrote; the target, when it redirected PC; the cycles it adds
(`extra`, R179). -/
structure Effect where
  state  : State
  target : Option Word
  extra  : Nat
  deriving DecidableEq, Repr

/-- The effect of a rule that neither redirects PC nor adds cycles. -/
def Effect.plain (s : State) : Effect := ⟨s, none, 0⟩

/-- The effect of a rule that redirects PC and adds no cycles. -/
def Effect.goto (s : State) (target : Word) : Effect := ⟨s, some target, 0⟩

/-- An instruction rule (R78): from the resolver's result and page-cross flag and the state at step start to its
effect; `none` where it asks an operand or address its mode does not provide (R157). -/
abbrev Rule := Resolved → Bool → State → Option Effect

/-- The outcome type of one step. -/
abbrev Out := Host.Outcome State Fault Refusal

/-- Stages 4 and 5 of R73: PC goes to the target, or on by the row's length (R79); the cycle counter grows by the
row's base cost, its page-cross penalty and the rule's extra (R80, R180). -/
def Effect.commit (e : Effect) (row : Row) (pcross : Bool) (s : State) : State :=
  { e.state with
    pc := e.target.getD (s.pc + BitVec.ofNat 16 row.length)
    cycles := s.cycles + (row.base + (row.pageCross && pcross).toNat + e.extra) }

/-- Stages 3 to 5 of R73 on a resolved operand: commit every effect, or raise InvalidAddressing and commit nothing
but the run state (R81, R159). -/
def runResolved (row : Row) (rp : Resolved × Bool) (rule : Rule) (s : State) : Out :=
  match rule rp.1 rp.2 s with
  | some e => .next (e.commit row rp.2 s)
  | none => .next (s.raiseFault (.invalidAddressing row.opcode s.pc row.mode))

/-- Stages 2 to 5 of R73 on a decoded operand. -/
def runRow (row : Row) (o : Operand) (rule : Rule) (s : State) : Out := runResolved row (resolve o s) rule s

end Sys2Proof.Machine
end

