-- ==== Sys2Proof/Machine/Arithmetic.lean ====
section
/-! DEFINITION. Arithmetic and compare instructions, 42_arithmetic_compare.md R101 to R106. Decimal mode is inert: no rule here reads P.D (R101).
`rule<Kind>` is the pseudocode of one kind; `exec<Row>` is the meaning of one row of the opcode table. -/

namespace Sys2Proof.Machine

/-- `A <- r; P.C <- cout; P.V <- v; SetZN(r)` of R102 and R103. -/
def State.withSum (s : State) (r : Byte × Bool × Bool) : State :=
  { s with a := r.1, p := setZN (setFlag (setFlag s.p .c r.2.1) .v r.2.2) r.1 }

/-- ADC, R102: `(r, cout, v) <- AddC(A, M, P.C); A <- r; P.C <- cout; P.V <- v; SetZN(r)`. -/
def ruleAdc : Rule := fun res _ s =>
  (operandOf res s).map fun m => .plain (s.withSum (addC s.a m (getFlag s.p .c)))

/-- 0x61 `ADC ($nn,X)`, R102. -/
def execAdcIndx (z : Byte) (s : State) : Out :=
  runRow rowAdcIndx (.indirectX z) ruleAdc s

/-- 0x65 `ADC $nn`, R102. -/
def execAdcZp (z : Byte) (s : State) : Out :=
  runRow rowAdcZp (.zeroPage z) ruleAdc s

/-- 0x69 `ADC #$nn`, R102. -/
def execAdcImm (v : Byte) (s : State) : Out :=
  runRow rowAdcImm (.immediate v) ruleAdc s

/-- 0x6D `ADC $nnnn`, R102. -/
def execAdcAbs (a : Word) (s : State) : Out :=
  runRow rowAdcAbs (.absolute a) ruleAdc s

/-- 0x71 `ADC ($nn),Y`, R102. -/
def execAdcIndy (z : Byte) (s : State) : Out :=
  runRow rowAdcIndy (.indirectY z) ruleAdc s

/-- 0x75 `ADC $nn,X`, R102. -/
def execAdcZpx (z : Byte) (s : State) : Out :=
  runRow rowAdcZpx (.zeroPageX z) ruleAdc s

/-- 0x79 `ADC $nnnn,Y`, R102. -/
def execAdcAbsy (a : Word) (s : State) : Out :=
  runRow rowAdcAbsy (.absoluteY a) ruleAdc s

/-- 0x7D `ADC $nnnn,X`, R102. -/
def execAdcAbsx (a : Word) (s : State) : Out :=
  runRow rowAdcAbsx (.absoluteX a) ruleAdc s

/-- SBC, R103: `(r, cout, v) <- SubC(A, M, P.C); A <- r; P.C <- cout; P.V <- v; SetZN(r)`. -/
def ruleSbc : Rule := fun res _ s =>
  (operandOf res s).map fun m => .plain (s.withSum (subC s.a m (getFlag s.p .c)))

/-- 0xE1 `SBC ($nn,X)`, R103. -/
def execSbcIndx (z : Byte) (s : State) : Out :=
  runRow rowSbcIndx (.indirectX z) ruleSbc s

/-- 0xE5 `SBC $nn`, R103. -/
def execSbcZp (z : Byte) (s : State) : Out :=
  runRow rowSbcZp (.zeroPage z) ruleSbc s

/-- 0xE9 `SBC #$nn`, R103. -/
def execSbcImm (v : Byte) (s : State) : Out :=
  runRow rowSbcImm (.immediate v) ruleSbc s

/-- 0xED `SBC $nnnn`, R103. -/
def execSbcAbs (a : Word) (s : State) : Out :=
  runRow rowSbcAbs (.absolute a) ruleSbc s

/-- 0xF1 `SBC ($nn),Y`, R103. -/
def execSbcIndy (z : Byte) (s : State) : Out :=
  runRow rowSbcIndy (.indirectY z) ruleSbc s

/-- 0xF5 `SBC $nn,X`, R103. -/
def execSbcZpx (z : Byte) (s : State) : Out :=
  runRow rowSbcZpx (.zeroPageX z) ruleSbc s

/-- 0xF9 `SBC $nnnn,Y`, R103. -/
def execSbcAbsy (a : Word) (s : State) : Out :=
  runRow rowSbcAbsy (.absoluteY a) ruleSbc s

/-- 0xFD `SBC $nnnn,X`, R103. -/
def execSbcAbsx (a : Word) (s : State) : Out :=
  runRow rowSbcAbsx (.absoluteX a) ruleSbc s

/-- CMP, R104: `Compare(A, M)`; A is not written. -/
def ruleCmp : Rule := fun res _ s =>
  (operandOf res s).map fun m => .plain { s with p := compareFlags s.p s.a m }

/-- 0xC1 `CMP ($nn,X)`, R104. -/
def execCmpIndx (z : Byte) (s : State) : Out :=
  runRow rowCmpIndx (.indirectX z) ruleCmp s

/-- 0xC5 `CMP $nn`, R104. -/
def execCmpZp (z : Byte) (s : State) : Out :=
  runRow rowCmpZp (.zeroPage z) ruleCmp s

/-- 0xC9 `CMP #$nn`, R104. -/
def execCmpImm (v : Byte) (s : State) : Out :=
  runRow rowCmpImm (.immediate v) ruleCmp s

/-- 0xCD `CMP $nnnn`, R104. -/
def execCmpAbs (a : Word) (s : State) : Out :=
  runRow rowCmpAbs (.absolute a) ruleCmp s

/-- 0xD1 `CMP ($nn),Y`, R104. -/
def execCmpIndy (z : Byte) (s : State) : Out :=
  runRow rowCmpIndy (.indirectY z) ruleCmp s

/-- 0xD5 `CMP $nn,X`, R104. -/
def execCmpZpx (z : Byte) (s : State) : Out :=
  runRow rowCmpZpx (.zeroPageX z) ruleCmp s

/-- 0xD9 `CMP $nnnn,Y`, R104. -/
def execCmpAbsy (a : Word) (s : State) : Out :=
  runRow rowCmpAbsy (.absoluteY a) ruleCmp s

/-- 0xDD `CMP $nnnn,X`, R104. -/
def execCmpAbsx (a : Word) (s : State) : Out :=
  runRow rowCmpAbsx (.absoluteX a) ruleCmp s

/-- CPX, R105: `Compare(X, M)`; X is not written. -/
def ruleCpx : Rule := fun res _ s =>
  (operandOf res s).map fun m => .plain { s with p := compareFlags s.p s.x m }

/-- 0xE0 `CPX #$nn`, R105. -/
def execCpxImm (v : Byte) (s : State) : Out :=
  runRow rowCpxImm (.immediate v) ruleCpx s

/-- 0xE4 `CPX $nn`, R105. -/
def execCpxZp (z : Byte) (s : State) : Out :=
  runRow rowCpxZp (.zeroPage z) ruleCpx s

/-- 0xEC `CPX $nnnn`, R105. -/
def execCpxAbs (a : Word) (s : State) : Out :=
  runRow rowCpxAbs (.absolute a) ruleCpx s

/-- CPY, R106: `Compare(Y, M)`; Y is not written. -/
def ruleCpy : Rule := fun res _ s =>
  (operandOf res s).map fun m => .plain { s with p := compareFlags s.p s.y m }

/-- 0xC0 `CPY #$nn`, R106. -/
def execCpyImm (v : Byte) (s : State) : Out :=
  runRow rowCpyImm (.immediate v) ruleCpy s

/-- 0xC4 `CPY $nn`, R106. -/
def execCpyZp (z : Byte) (s : State) : Out :=
  runRow rowCpyZp (.zeroPage z) ruleCpy s

/-- 0xCC `CPY $nnnn`, R106. -/
def execCpyAbs (a : Word) (s : State) : Out :=
  runRow rowCpyAbs (.absolute a) ruleCpy s

end Sys2Proof.Machine
end

