-- ==== Sys2Proof/Machine/Branch.lean ====
section
/-! DEFINITION. The eight conditional branches, 46_branch.md R121 to R129.
`rule<Kind>` is the pseudocode of one kind; `exec<Row>` is the meaning of one row of the opcode table. -/

namespace Sys2Proof.Machine

/-- The common branch rule, R121: where the condition holds, PC goes to the target and the branch adds 1 cycle, and
1 more when the target's page is not that of the next instruction (R179). -/
def branchIf (cond : Bool) (res : Resolved) (pcross : Bool) (s : State) : Option Effect :=
  (eaOf res).map fun target => if cond then ⟨s, some target, 1 + pcross.toNat⟩ else .plain s

/-- BCC, R122: `cond = (P.C = 0)`. -/
def ruleBcc : Rule := fun res pcross s =>
  branchIf (!getFlag s.p .c) res pcross s

/-- 0x90 `BCC $nnnn (target)`, R122. -/
def execBcc (d : Byte) (s : State) : Out :=
  runRow rowBcc (.relative d) ruleBcc s

/-- BCS, R123: `cond = (P.C = 1)`. -/
def ruleBcs : Rule := fun res pcross s =>
  branchIf (getFlag s.p .c) res pcross s

/-- 0xB0 `BCS $nnnn (target)`, R123. -/
def execBcs (d : Byte) (s : State) : Out :=
  runRow rowBcs (.relative d) ruleBcs s

/-- BEQ, R124: `cond = (P.Z = 1)`. -/
def ruleBeq : Rule := fun res pcross s =>
  branchIf (getFlag s.p .z) res pcross s

/-- 0xF0 `BEQ $nnnn (target)`, R124. -/
def execBeq (d : Byte) (s : State) : Out :=
  runRow rowBeq (.relative d) ruleBeq s

/-- BNE, R125: `cond = (P.Z = 0)`. -/
def ruleBne : Rule := fun res pcross s =>
  branchIf (!getFlag s.p .z) res pcross s

/-- 0xD0 `BNE $nnnn (target)`, R125. -/
def execBne (d : Byte) (s : State) : Out :=
  runRow rowBne (.relative d) ruleBne s

/-- BMI, R126: `cond = (P.N = 1)`. -/
def ruleBmi : Rule := fun res pcross s =>
  branchIf (getFlag s.p .n) res pcross s

/-- 0x30 `BMI $nnnn (target)`, R126. -/
def execBmi (d : Byte) (s : State) : Out :=
  runRow rowBmi (.relative d) ruleBmi s

/-- BPL, R127: `cond = (P.N = 0)`. -/
def ruleBpl : Rule := fun res pcross s =>
  branchIf (!getFlag s.p .n) res pcross s

/-- 0x10 `BPL $nnnn (target)`, R127. -/
def execBpl (d : Byte) (s : State) : Out :=
  runRow rowBpl (.relative d) ruleBpl s

/-- BVC, R128: `cond = (P.V = 0)`. -/
def ruleBvc : Rule := fun res pcross s =>
  branchIf (!getFlag s.p .v) res pcross s

/-- 0x50 `BVC $nnnn (target)`, R128. -/
def execBvc (d : Byte) (s : State) : Out :=
  runRow rowBvc (.relative d) ruleBvc s

/-- BVS, R129: `cond = (P.V = 1)`. -/
def ruleBvs : Rule := fun res pcross s =>
  branchIf (getFlag s.p .v) res pcross s

/-- 0x70 `BVS $nnnn (target)`, R129. -/
def execBvs (d : Byte) (s : State) : Out :=
  runRow rowBvs (.relative d) ruleBvs s

end Sys2Proof.Machine
end

