-- ==== Sys2Proof/Machine/FlagsTransfer.lean ====
section
/-! DEFINITION. Flag set and clear and register transfer instructions, 49_flags_transfer.md R142 to R154.
`rule<Kind>` is the pseudocode of one kind; `exec<Row>` is the meaning of one row of the opcode table. -/

namespace Sys2Proof.Machine

/-- CLC, R142: `P.C <- 0`. -/
def ruleClc : Rule := fun _ _ s =>
  some (.plain { s with p := setFlag s.p .c false })

/-- 0x18 `CLC`, R142. -/
def execClc (s : State) : Out :=
  runRow rowClc .implied ruleClc s

/-- SEC, R143: `P.C <- 1`. -/
def ruleSec : Rule := fun _ _ s =>
  some (.plain { s with p := setFlag s.p .c true })

/-- 0x38 `SEC`, R143. -/
def execSec (s : State) : Out :=
  runRow rowSec .implied ruleSec s

/-- CLI, R144: `P.I <- 0`. -/
def ruleCli : Rule := fun _ _ s =>
  some (.plain { s with p := setFlag s.p .i false })

/-- 0x58 `CLI`, R144. -/
def execCli (s : State) : Out :=
  runRow rowCli .implied ruleCli s

/-- SEI, R145: `P.I <- 1`. -/
def ruleSei : Rule := fun _ _ s =>
  some (.plain { s with p := setFlag s.p .i true })

/-- 0x78 `SEI`, R145. -/
def execSei (s : State) : Out :=
  runRow rowSei .implied ruleSei s

/-- CLV, R146: `P.V <- 0`. -/
def ruleClv : Rule := fun _ _ s =>
  some (.plain { s with p := setFlag s.p .v false })

/-- 0xB8 `CLV`, R146. -/
def execClv (s : State) : Out :=
  runRow rowClv .implied ruleClv s

/-- CLD, R147: `P.D <- 0`. -/
def ruleCld : Rule := fun _ _ s =>
  some (.plain { s with p := setFlag s.p .d false })

/-- 0xD8 `CLD`, R147. -/
def execCld (s : State) : Out :=
  runRow rowCld .implied ruleCld s

/-- SED, R148: `P.D <- 1`. -/
def ruleSed : Rule := fun _ _ s =>
  some (.plain { s with p := setFlag s.p .d true })

/-- 0xF8 `SED`, R148. -/
def execSed (s : State) : Out :=
  runRow rowSed .implied ruleSed s

/-- TAX, R149: `X <- A; SetZN(X)`. -/
def ruleTax : Rule := fun _ _ s =>
  some (.plain { s with x := s.a, p := setZN s.p s.a })

/-- 0xAA `TAX`, R149. -/
def execTax (s : State) : Out :=
  runRow rowTax .implied ruleTax s

/-- TAY, R150: `Y <- A; SetZN(Y)`. -/
def ruleTay : Rule := fun _ _ s =>
  some (.plain { s with y := s.a, p := setZN s.p s.a })

/-- 0xA8 `TAY`, R150. -/
def execTay (s : State) : Out :=
  runRow rowTay .implied ruleTay s

/-- TXA, R151: `A <- X; SetZN(A)`. -/
def ruleTxa : Rule := fun _ _ s =>
  some (.plain { s with a := s.x, p := setZN s.p s.x })

/-- 0x8A `TXA`, R151. -/
def execTxa (s : State) : Out :=
  runRow rowTxa .implied ruleTxa s

/-- TYA, R152: `A <- Y; SetZN(A)`. -/
def ruleTya : Rule := fun _ _ s =>
  some (.plain { s with a := s.y, p := setZN s.p s.y })

/-- 0x98 `TYA`, R152. -/
def execTya (s : State) : Out :=
  runRow rowTya .implied ruleTya s

/-- TSX, R153: `X <- SP; SetZN(X)`. -/
def ruleTsx : Rule := fun _ _ s =>
  some (.plain { s with x := s.sp, p := setZN s.p s.sp })

/-- 0xBA `TSX`, R153. -/
def execTsx (s : State) : Out :=
  runRow rowTsx .implied ruleTsx s

/-- TXS, R154: `SP <- X`; no flag. -/
def ruleTxs : Rule := fun _ _ s => some (.plain { s with sp := s.x })

/-- 0x9A `TXS`, R154. -/
def execTxs (s : State) : Out :=
  runRow rowTxs .implied ruleTxs s

end Sys2Proof.Machine
end

