-- ==== Sys2Proof/Machine/IncDec.lean ====
section
/-! DEFINITION. Increment and decrement instructions, 45_inc_dec.md R115 to R120. None writes C or V.
`rule<Kind>` is the pseudocode of one kind; `exec<Row>` is the meaning of one row of the opcode table. -/

namespace Sys2Proof.Machine

/-- `WriteBack(res, r); SetZN(r)` of R115 and R116. -/
def stepBack (res : Resolved) (r : Byte) (s : State) : Option Effect :=
  (writeBack res r s).map fun t => .plain { t with p := setZN t.p r }

/-- INC, R115: `r <- Inc(Operand(res)); WriteBack(res, r); SetZN(r)`. -/
def ruleInc : Rule := fun res _ s =>
  (operandOf res s).bind fun m => stepBack res (inc8 m) s

/-- 0xE6 `INC $nn`, R115. -/
def execIncZp (z : Byte) (s : State) : Out :=
  runRow rowIncZp (.zeroPage z) ruleInc s

/-- 0xEE `INC $nnnn`, R115. -/
def execIncAbs (a : Word) (s : State) : Out :=
  runRow rowIncAbs (.absolute a) ruleInc s

/-- 0xF6 `INC $nn,X`, R115. -/
def execIncZpx (z : Byte) (s : State) : Out :=
  runRow rowIncZpx (.zeroPageX z) ruleInc s

/-- 0xFE `INC $nnnn,X`, R115. -/
def execIncAbsx (a : Word) (s : State) : Out :=
  runRow rowIncAbsx (.absoluteX a) ruleInc s

/-- DEC, R116: `r <- Dec(Operand(res)); WriteBack(res, r); SetZN(r)`. -/
def ruleDec : Rule := fun res _ s =>
  (operandOf res s).bind fun m => stepBack res (dec8 m) s

/-- 0xC6 `DEC $nn`, R116. -/
def execDecZp (z : Byte) (s : State) : Out :=
  runRow rowDecZp (.zeroPage z) ruleDec s

/-- 0xCE `DEC $nnnn`, R116. -/
def execDecAbs (a : Word) (s : State) : Out :=
  runRow rowDecAbs (.absolute a) ruleDec s

/-- 0xD6 `DEC $nn,X`, R116. -/
def execDecZpx (z : Byte) (s : State) : Out :=
  runRow rowDecZpx (.zeroPageX z) ruleDec s

/-- 0xDE `DEC $nnnn,X`, R116. -/
def execDecAbsx (a : Word) (s : State) : Out :=
  runRow rowDecAbsx (.absoluteX a) ruleDec s

/-- INX, R117: `X <- Inc(X); SetZN(X)`. -/
def ruleInx : Rule := fun _ _ s =>
  some (.plain { s with x := inc8 s.x, p := setZN s.p (inc8 s.x) })

/-- 0xE8 `INX`, R117. -/
def execInx (s : State) : Out :=
  runRow rowInx .implied ruleInx s

/-- INY, R118: `Y <- Inc(Y); SetZN(Y)`. -/
def ruleIny : Rule := fun _ _ s =>
  some (.plain { s with y := inc8 s.y, p := setZN s.p (inc8 s.y) })

/-- 0xC8 `INY`, R118. -/
def execIny (s : State) : Out :=
  runRow rowIny .implied ruleIny s

/-- DEX, R119: `X <- Dec(X); SetZN(X)`. -/
def ruleDex : Rule := fun _ _ s =>
  some (.plain { s with x := dec8 s.x, p := setZN s.p (dec8 s.x) })

/-- 0xCA `DEX`, R119. -/
def execDex (s : State) : Out :=
  runRow rowDex .implied ruleDex s

/-- DEY, R120: `Y <- Dec(Y); SetZN(Y)`. -/
def ruleDey : Rule := fun _ _ s =>
  some (.plain { s with y := dec8 s.y, p := setZN s.p (dec8 s.y) })

/-- 0x88 `DEY`, R120. -/
def execDey (s : State) : Out :=
  runRow rowDey .implied ruleDey s

end Sys2Proof.Machine
end

