-- ==== Sys2Proof/Machine/Jump.lean ====
section
/-! DEFINITION. Jump, call, return, break, return from interrupt and no-operation, 47_jump_call_system.md R130 to R135, and the illegal byte values, 40_dispatch.md R76.
`rule<Kind>` is the pseudocode of one kind; `exec<Row>` is the meaning of one row of the opcode table. -/

namespace Sys2Proof.Machine

/-- JMP, R130: `pc <- EA(res)`. -/
def ruleJmp : Rule := fun res _ s => (eaOf res).map fun ea => .goto s ea

/-- 0x4C `JMP $nnnn`, R130. -/
def execJmpAbs (a : Word) (s : State) : Out :=
  runRow rowJmpAbs (.absolute a) ruleJmp s

/-- 0x6C `JMP ($nnnn)`, R130. -/
def execJmpInd (a : Word) (s : State) : Out :=
  runRow rowJmpInd (.indirect a) ruleJmp s

/-- JSR, R131: `ret <- pc0 +16 2; Push(hi(ret)); Push(lo(ret)); pc <- target`, the target read before the pushes (R47). -/
def ruleJsr : Rule := fun res _ s =>
  (eaOf res).map fun ea => .goto (s.pushWord (s.pc + 2)) ea

/-- 0x20 `JSR $nnnn`, R131. -/
def execJsr (a : Word) (s : State) : Out :=
  runRow rowJsr (.absolute a) ruleJsr s

/-- RTS, R132: `lo <- Pull(); hi <- Pull(); pc <- {hi, lo} +16 1`. -/
def ruleRts : Rule := fun _ _ s =>
  some (.goto s.afterPull.afterPull (s.pulledWord + 1))

/-- 0x60 `RTS`, R132. -/
def execRts (s : State) : Out :=
  runRow rowRts .implied ruleRts s

/-- BRK, R133: halt mode: `run <- Halted`, and PC becomes pc0 + 1 by R79; interrupt mode: the trap entry of R162 with the
return address pc0 + 2, whatever I is. The vector lies outside the stack page, so that reading it before the pushes
is reading it after them. -/
def ruleBrk : Rule := fun _ _ s =>
  if s.brkHandler then some (.goto (s.trapEntry (s.pc + 2)) s.trapTarget)
  else some (.plain { s with run := .halted })

/-- 0x00 `BRK`, R133. -/
def execBrk (s : State) : Out :=
  runRow rowBrk .implied ruleBrk s

/-- RTI, R134: `P <- PullImage(Pull()); lo <- Pull(); hi <- Pull(); pc <- {hi, lo}`, the trap return of R163. -/
def ruleRti : Rule := fun _ _ s =>
  some (.goto s.trapReturn s.trapReturnTarget)

/-- 0x40 `RTI`, R134. -/
def execRti (s : State) : Out :=
  runRow rowRti .implied ruleRti s

/-- NOP, R135: nothing. -/
def ruleNop : Rule := fun _ _ s => some (.plain s)

/-- 0xEA `NOP`, R135. -/
def execNop (s : State) : Out :=
  runRow rowNop .implied ruleNop s

/-- The 105 illegal byte values, R76 and R156: the step raises IllegalOpcode with the byte and `pc0`. Nothing else
changes and no cycle is consumed (R159). -/
def execIllegal (op : Byte) (s : State) : Out := .next (s.raiseFault (.illegalOpcode op s.pc))

end Sys2Proof.Machine
end

