-- ==== Sys2Proof/Machine/LoadStore.lean ====
section
/-! DEFINITION. Load and store instructions, 41_load_store.md R95 to R100. Only loads write flags.
`rule<Kind>` is the pseudocode of one kind; `exec<Row>` is the meaning of one row of the opcode table. -/

namespace Sys2Proof.Machine

/-- LDA, R95: `A <- M; SetZN(A)`. -/
def ruleLda : Rule := fun res _ s =>
  (operandOf res s).map fun m => .plain { s with a := m, p := setZN s.p m }

/-- 0xA1 `LDA ($nn,X)`, R95. -/
def execLdaIndx (z : Byte) (s : State) : Out :=
  runRow rowLdaIndx (.indirectX z) ruleLda s

/-- 0xA5 `LDA $nn`, R95. -/
def execLdaZp (z : Byte) (s : State) : Out :=
  runRow rowLdaZp (.zeroPage z) ruleLda s

/-- 0xA9 `LDA #$nn`, R95. -/
def execLdaImm (v : Byte) (s : State) : Out :=
  runRow rowLdaImm (.immediate v) ruleLda s

/-- 0xAD `LDA $nnnn`, R95. -/
def execLdaAbs (a : Word) (s : State) : Out :=
  runRow rowLdaAbs (.absolute a) ruleLda s

/-- 0xB1 `LDA ($nn),Y`, R95. -/
def execLdaIndy (z : Byte) (s : State) : Out :=
  runRow rowLdaIndy (.indirectY z) ruleLda s

/-- 0xB5 `LDA $nn,X`, R95. -/
def execLdaZpx (z : Byte) (s : State) : Out :=
  runRow rowLdaZpx (.zeroPageX z) ruleLda s

/-- 0xB9 `LDA $nnnn,Y`, R95. -/
def execLdaAbsy (a : Word) (s : State) : Out :=
  runRow rowLdaAbsy (.absoluteY a) ruleLda s

/-- 0xBD `LDA $nnnn,X`, R95. -/
def execLdaAbsx (a : Word) (s : State) : Out :=
  runRow rowLdaAbsx (.absoluteX a) ruleLda s

/-- LDX, R96: `X <- M; SetZN(X)`. -/
def ruleLdx : Rule := fun res _ s =>
  (operandOf res s).map fun m => .plain { s with x := m, p := setZN s.p m }

/-- 0xA2 `LDX #$nn`, R96. -/
def execLdxImm (v : Byte) (s : State) : Out :=
  runRow rowLdxImm (.immediate v) ruleLdx s

/-- 0xA6 `LDX $nn`, R96. -/
def execLdxZp (z : Byte) (s : State) : Out :=
  runRow rowLdxZp (.zeroPage z) ruleLdx s

/-- 0xAE `LDX $nnnn`, R96. -/
def execLdxAbs (a : Word) (s : State) : Out :=
  runRow rowLdxAbs (.absolute a) ruleLdx s

/-- 0xB6 `LDX $nn,Y`, R96. -/
def execLdxZpy (z : Byte) (s : State) : Out :=
  runRow rowLdxZpy (.zeroPageY z) ruleLdx s

/-- 0xBE `LDX $nnnn,Y`, R96. -/
def execLdxAbsy (a : Word) (s : State) : Out :=
  runRow rowLdxAbsy (.absoluteY a) ruleLdx s

/-- LDY, R97: `Y <- M; SetZN(Y)`. -/
def ruleLdy : Rule := fun res _ s =>
  (operandOf res s).map fun m => .plain { s with y := m, p := setZN s.p m }

/-- 0xA0 `LDY #$nn`, R97. -/
def execLdyImm (v : Byte) (s : State) : Out :=
  runRow rowLdyImm (.immediate v) ruleLdy s

/-- 0xA4 `LDY $nn`, R97. -/
def execLdyZp (z : Byte) (s : State) : Out :=
  runRow rowLdyZp (.zeroPage z) ruleLdy s

/-- 0xAC `LDY $nnnn`, R97. -/
def execLdyAbs (a : Word) (s : State) : Out :=
  runRow rowLdyAbs (.absolute a) ruleLdy s

/-- 0xB4 `LDY $nn,X`, R97. -/
def execLdyZpx (z : Byte) (s : State) : Out :=
  runRow rowLdyZpx (.zeroPageX z) ruleLdy s

/-- 0xBC `LDY $nnnn,X`, R97. -/
def execLdyAbsx (a : Word) (s : State) : Out :=
  runRow rowLdyAbsx (.absoluteX a) ruleLdy s

/-- STA, R98: `write8(EA(res), A)`; no flag. -/
def ruleSta : Rule := fun res _ s =>
  (eaOf res).map fun ea => .plain (s.write8 ea s.a)

/-- 0x81 `STA ($nn,X)`, R98. -/
def execStaIndx (z : Byte) (s : State) : Out :=
  runRow rowStaIndx (.indirectX z) ruleSta s

/-- 0x85 `STA $nn`, R98. -/
def execStaZp (z : Byte) (s : State) : Out :=
  runRow rowStaZp (.zeroPage z) ruleSta s

/-- 0x8D `STA $nnnn`, R98. -/
def execStaAbs (a : Word) (s : State) : Out :=
  runRow rowStaAbs (.absolute a) ruleSta s

/-- 0x91 `STA ($nn),Y`, R98. -/
def execStaIndy (z : Byte) (s : State) : Out :=
  runRow rowStaIndy (.indirectY z) ruleSta s

/-- 0x95 `STA $nn,X`, R98. -/
def execStaZpx (z : Byte) (s : State) : Out :=
  runRow rowStaZpx (.zeroPageX z) ruleSta s

/-- 0x99 `STA $nnnn,Y`, R98. -/
def execStaAbsy (a : Word) (s : State) : Out :=
  runRow rowStaAbsy (.absoluteY a) ruleSta s

/-- 0x9D `STA $nnnn,X`, R98. -/
def execStaAbsx (a : Word) (s : State) : Out :=
  runRow rowStaAbsx (.absoluteX a) ruleSta s

/-- STX, R99: `write8(EA(res), X)`; no flag. -/
def ruleStx : Rule := fun res _ s =>
  (eaOf res).map fun ea => .plain (s.write8 ea s.x)

/-- 0x86 `STX $nn`, R99. -/
def execStxZp (z : Byte) (s : State) : Out :=
  runRow rowStxZp (.zeroPage z) ruleStx s

/-- 0x8E `STX $nnnn`, R99. -/
def execStxAbs (a : Word) (s : State) : Out :=
  runRow rowStxAbs (.absolute a) ruleStx s

/-- 0x96 `STX $nn,Y`, R99. -/
def execStxZpy (z : Byte) (s : State) : Out :=
  runRow rowStxZpy (.zeroPageY z) ruleStx s

/-- STY, R100: `write8(EA(res), Y)`; no flag. -/
def ruleSty : Rule := fun res _ s =>
  (eaOf res).map fun ea => .plain (s.write8 ea s.y)

/-- 0x84 `STY $nn`, R100. -/
def execStyZp (z : Byte) (s : State) : Out :=
  runRow rowStyZp (.zeroPage z) ruleSty s

/-- 0x8C `STY $nnnn`, R100. -/
def execStyAbs (a : Word) (s : State) : Out :=
  runRow rowStyAbs (.absolute a) ruleSty s

/-- 0x94 `STY $nn,X`, R100. -/
def execStyZpx (z : Byte) (s : State) : Out :=
  runRow rowStyZpx (.zeroPageX z) ruleSty s

end Sys2Proof.Machine
end

