-- ==== Sys2Proof/Machine/Logical.lean ====
section
/-! DEFINITION. Logical instructions and BIT, 43_logical.md R107 to R110.
`rule<Kind>` is the pseudocode of one kind; `exec<Row>` is the meaning of one row of the opcode table. -/

namespace Sys2Proof.Machine

/-- The status after BIT (R110): Z from `A & M`, N from bit 7 and V from bit 6 of M. -/
def bitFlags (p a m : Byte) : Byte :=
  setFlag (setFlag (setFlag p .z (andB a m == 0)) .n (m.getLsbD 7)) .v (m.getLsbD 6)

/-- AND, R107: `A <- A & M; SetZN(A)`. -/
def ruleAnd : Rule := fun res _ s =>
  (operandOf res s).map fun m => .plain { s with a := andB s.a m, p := setZN s.p (andB s.a m) }

/-- 0x21 `AND ($nn,X)`, R107. -/
def execAndIndx (z : Byte) (s : State) : Out :=
  runRow rowAndIndx (.indirectX z) ruleAnd s

/-- 0x25 `AND $nn`, R107. -/
def execAndZp (z : Byte) (s : State) : Out :=
  runRow rowAndZp (.zeroPage z) ruleAnd s

/-- 0x29 `AND #$nn`, R107. -/
def execAndImm (v : Byte) (s : State) : Out :=
  runRow rowAndImm (.immediate v) ruleAnd s

/-- 0x2D `AND $nnnn`, R107. -/
def execAndAbs (a : Word) (s : State) : Out :=
  runRow rowAndAbs (.absolute a) ruleAnd s

/-- 0x31 `AND ($nn),Y`, R107. -/
def execAndIndy (z : Byte) (s : State) : Out :=
  runRow rowAndIndy (.indirectY z) ruleAnd s

/-- 0x35 `AND $nn,X`, R107. -/
def execAndZpx (z : Byte) (s : State) : Out :=
  runRow rowAndZpx (.zeroPageX z) ruleAnd s

/-- 0x39 `AND $nnnn,Y`, R107. -/
def execAndAbsy (a : Word) (s : State) : Out :=
  runRow rowAndAbsy (.absoluteY a) ruleAnd s

/-- 0x3D `AND $nnnn,X`, R107. -/
def execAndAbsx (a : Word) (s : State) : Out :=
  runRow rowAndAbsx (.absoluteX a) ruleAnd s

/-- ORA, R108: `A <- A | M; SetZN(A)`. -/
def ruleOra : Rule := fun res _ s =>
  (operandOf res s).map fun m => .plain { s with a := orB s.a m, p := setZN s.p (orB s.a m) }

/-- 0x01 `ORA ($nn,X)`, R108. -/
def execOraIndx (z : Byte) (s : State) : Out :=
  runRow rowOraIndx (.indirectX z) ruleOra s

/-- 0x05 `ORA $nn`, R108. -/
def execOraZp (z : Byte) (s : State) : Out :=
  runRow rowOraZp (.zeroPage z) ruleOra s

/-- 0x09 `ORA #$nn`, R108. -/
def execOraImm (v : Byte) (s : State) : Out :=
  runRow rowOraImm (.immediate v) ruleOra s

/-- 0x0D `ORA $nnnn`, R108. -/
def execOraAbs (a : Word) (s : State) : Out :=
  runRow rowOraAbs (.absolute a) ruleOra s

/-- 0x11 `ORA ($nn),Y`, R108. -/
def execOraIndy (z : Byte) (s : State) : Out :=
  runRow rowOraIndy (.indirectY z) ruleOra s

/-- 0x15 `ORA $nn,X`, R108. -/
def execOraZpx (z : Byte) (s : State) : Out :=
  runRow rowOraZpx (.zeroPageX z) ruleOra s

/-- 0x19 `ORA $nnnn,Y`, R108. -/
def execOraAbsy (a : Word) (s : State) : Out :=
  runRow rowOraAbsy (.absoluteY a) ruleOra s

/-- 0x1D `ORA $nnnn,X`, R108. -/
def execOraAbsx (a : Word) (s : State) : Out :=
  runRow rowOraAbsx (.absoluteX a) ruleOra s

/-- EOR, R109: `A <- A ^ M; SetZN(A)`. -/
def ruleEor : Rule := fun res _ s =>
  (operandOf res s).map fun m => .plain { s with a := xorB s.a m, p := setZN s.p (xorB s.a m) }

/-- 0x41 `EOR ($nn,X)`, R109. -/
def execEorIndx (z : Byte) (s : State) : Out :=
  runRow rowEorIndx (.indirectX z) ruleEor s

/-- 0x45 `EOR $nn`, R109. -/
def execEorZp (z : Byte) (s : State) : Out :=
  runRow rowEorZp (.zeroPage z) ruleEor s

/-- 0x49 `EOR #$nn`, R109. -/
def execEorImm (v : Byte) (s : State) : Out :=
  runRow rowEorImm (.immediate v) ruleEor s

/-- 0x4D `EOR $nnnn`, R109. -/
def execEorAbs (a : Word) (s : State) : Out :=
  runRow rowEorAbs (.absolute a) ruleEor s

/-- 0x51 `EOR ($nn),Y`, R109. -/
def execEorIndy (z : Byte) (s : State) : Out :=
  runRow rowEorIndy (.indirectY z) ruleEor s

/-- 0x55 `EOR $nn,X`, R109. -/
def execEorZpx (z : Byte) (s : State) : Out :=
  runRow rowEorZpx (.zeroPageX z) ruleEor s

/-- 0x59 `EOR $nnnn,Y`, R109. -/
def execEorAbsy (a : Word) (s : State) : Out :=
  runRow rowEorAbsy (.absoluteY a) ruleEor s

/-- 0x5D `EOR $nnnn,X`, R109. -/
def execEorAbsx (a : Word) (s : State) : Out :=
  runRow rowEorAbsx (.absoluteX a) ruleEor s

/-- BIT, R110: `P.Z <- ((A & M) = 0); P.N <- M[7]; P.V <- M[6]`. -/
def ruleBit : Rule := fun res _ s =>
  (operandOf res s).map fun m => .plain { s with p := bitFlags s.p s.a m }

/-- 0x24 `BIT $nn`, R110. -/
def execBitZp (z : Byte) (s : State) : Out :=
  runRow rowBitZp (.zeroPage z) ruleBit s

/-- 0x2C `BIT $nnnn`, R110. -/
def execBitAbs (a : Word) (s : State) : Out :=
  runRow rowBitAbs (.absolute a) ruleBit s

end Sys2Proof.Machine
end

