-- ==== Sys2Proof/Machine/Shift.lean ====
section
/-! DEFINITION. Shift and rotate instructions, 44_shift_rotate.md R111 to R114.
`rule<Kind>` is the pseudocode of one kind; `exec<Row>` is the meaning of one row of the opcode table. -/

namespace Sys2Proof.Machine

/-- `WriteBack(res, r); P.C <- c; SetZN(r)` of R111 to R114. -/
def shiftBack (res : Resolved) (rc : Byte × Bool) (s : State) : Option Effect :=
  (writeBack res rc.1 s).map fun t => .plain { t with p := setZN (setFlag t.p .c rc.2) rc.1 }

/-- ASL, R111: `(r, c) <- Asl(M); WriteBack(res, r); P.C <- c; SetZN(r)`. -/
def ruleAsl : Rule := fun res _ s =>
  (operandOf res s).bind fun m => shiftBack res (asl m) s

/-- 0x06 `ASL $nn`, R111. -/
def execAslZp (z : Byte) (s : State) : Out :=
  runRow rowAslZp (.zeroPage z) ruleAsl s

/-- 0x0A `ASL A`, R111. -/
def execAslAcc (s : State) : Out :=
  runRow rowAslAcc .accumulator ruleAsl s

/-- 0x0E `ASL $nnnn`, R111. -/
def execAslAbs (a : Word) (s : State) : Out :=
  runRow rowAslAbs (.absolute a) ruleAsl s

/-- 0x16 `ASL $nn,X`, R111. -/
def execAslZpx (z : Byte) (s : State) : Out :=
  runRow rowAslZpx (.zeroPageX z) ruleAsl s

/-- 0x1E `ASL $nnnn,X`, R111. -/
def execAslAbsx (a : Word) (s : State) : Out :=
  runRow rowAslAbsx (.absoluteX a) ruleAsl s

/-- LSR, R112: `(r, c) <- Lsr(M); WriteBack(res, r); P.C <- c; SetZN(r)`. -/
def ruleLsr : Rule := fun res _ s =>
  (operandOf res s).bind fun m => shiftBack res (lsr m) s

/-- 0x46 `LSR $nn`, R112. -/
def execLsrZp (z : Byte) (s : State) : Out :=
  runRow rowLsrZp (.zeroPage z) ruleLsr s

/-- 0x4A `LSR A`, R112. -/
def execLsrAcc (s : State) : Out :=
  runRow rowLsrAcc .accumulator ruleLsr s

/-- 0x4E `LSR $nnnn`, R112. -/
def execLsrAbs (a : Word) (s : State) : Out :=
  runRow rowLsrAbs (.absolute a) ruleLsr s

/-- 0x56 `LSR $nn,X`, R112. -/
def execLsrZpx (z : Byte) (s : State) : Out :=
  runRow rowLsrZpx (.zeroPageX z) ruleLsr s

/-- 0x5E `LSR $nnnn,X`, R112. -/
def execLsrAbsx (a : Word) (s : State) : Out :=
  runRow rowLsrAbsx (.absoluteX a) ruleLsr s

/-- ROL, R113: `(r, c) <- Rol(M, P.C); WriteBack(res, r); P.C <- c; SetZN(r)`. -/
def ruleRol : Rule := fun res _ s =>
  (operandOf res s).bind fun m => shiftBack res (rol m (getFlag s.p .c)) s

/-- 0x26 `ROL $nn`, R113. -/
def execRolZp (z : Byte) (s : State) : Out :=
  runRow rowRolZp (.zeroPage z) ruleRol s

/-- 0x2A `ROL A`, R113. -/
def execRolAcc (s : State) : Out :=
  runRow rowRolAcc .accumulator ruleRol s

/-- 0x2E `ROL $nnnn`, R113. -/
def execRolAbs (a : Word) (s : State) : Out :=
  runRow rowRolAbs (.absolute a) ruleRol s

/-- 0x36 `ROL $nn,X`, R113. -/
def execRolZpx (z : Byte) (s : State) : Out :=
  runRow rowRolZpx (.zeroPageX z) ruleRol s

/-- 0x3E `ROL $nnnn,X`, R113. -/
def execRolAbsx (a : Word) (s : State) : Out :=
  runRow rowRolAbsx (.absoluteX a) ruleRol s

/-- ROR, R114: `(r, c) <- Ror(M, P.C); WriteBack(res, r); P.C <- c; SetZN(r)`. -/
def ruleRor : Rule := fun res _ s =>
  (operandOf res s).bind fun m => shiftBack res (ror m (getFlag s.p .c)) s

/-- 0x66 `ROR $nn`, R114. -/
def execRorZp (z : Byte) (s : State) : Out :=
  runRow rowRorZp (.zeroPage z) ruleRor s

/-- 0x6A `ROR A`, R114. -/
def execRorAcc (s : State) : Out :=
  runRow rowRorAcc .accumulator ruleRor s

/-- 0x6E `ROR $nnnn`, R114. -/
def execRorAbs (a : Word) (s : State) : Out :=
  runRow rowRorAbs (.absolute a) ruleRor s

/-- 0x76 `ROR $nn,X`, R114. -/
def execRorZpx (z : Byte) (s : State) : Out :=
  runRow rowRorZpx (.zeroPageX z) ruleRor s

/-- 0x7E `ROR $nnnn,X`, R114. -/
def execRorAbsx (a : Word) (s : State) : Out :=
  runRow rowRorAbsx (.absoluteX a) ruleRor s

end Sys2Proof.Machine
end

