-- ==== Sys2Proof/Machine/Stack.lean ====
section
/-! DEFINITION. Stack instructions, 48_stack.md R138 to R141.
`rule<Kind>` is the pseudocode of one kind; `exec<Row>` is the meaning of one row of the opcode table. -/

namespace Sys2Proof.Machine

/-- PHA, R138: `Push(A)`. -/
def rulePha : Rule := fun _ _ s => some (.plain (s.push s.a))

/-- 0x48 `PHA`, R138. -/
def execPha (s : State) : Out :=
  runRow rowPha .implied rulePha s

/-- PHP, R139: `Push(PushImage(P))`; P is unchanged. -/
def rulePhp : Rule := fun _ _ s => some (.plain (s.push (pushImage s.p)))

/-- 0x08 `PHP`, R139. -/
def execPhp (s : State) : Out :=
  runRow rowPhp .implied rulePhp s

/-- PLA, R140: `A <- Pull(); SetZN(A)`. -/
def rulePla : Rule := fun _ _ s =>
  some (.plain { s.afterPull with a := s.pulled, p := setZN s.p s.pulled })

/-- 0x68 `PLA`, R140. -/
def execPla (s : State) : Out :=
  runRow rowPla .implied rulePla s

/-- PLP, R141: `P <- PullImage(Pull())`. -/
def rulePlp : Rule := fun _ _ s =>
  some (.plain { s.afterPull with p := pullImage s.pulled })

/-- 0x28 `PLP`, R141. -/
def execPlp (s : State) : Out :=
  runRow rowPlp .implied rulePlp s

end Sys2Proof.Machine
end

