-- ==== Sys2Proof/Machine/Dispatch.lean ====
section
/-! DEFINITION. The dispatch: one arm per constructor of `Instr`, each one call of that instruction's meaning. -/

namespace Sys2Proof.Machine

def exec (i : Instr) (s : State) : Host.Outcome State Fault Refusal :=
  match i with
  -- 41_load_store.md
  | .ldaIndx z => Sys2Proof.Machine.execLdaIndx z s
  | .ldaZp z => Sys2Proof.Machine.execLdaZp z s
  | .ldaImm v => Sys2Proof.Machine.execLdaImm v s
  | .ldaAbs a => Sys2Proof.Machine.execLdaAbs a s
  | .ldaIndy z => Sys2Proof.Machine.execLdaIndy z s
  | .ldaZpx z => Sys2Proof.Machine.execLdaZpx z s
  | .ldaAbsy a => Sys2Proof.Machine.execLdaAbsy a s
  | .ldaAbsx a => Sys2Proof.Machine.execLdaAbsx a s
  | .ldxImm v => Sys2Proof.Machine.execLdxImm v s
  | .ldxZp z => Sys2Proof.Machine.execLdxZp z s
  | .ldxAbs a => Sys2Proof.Machine.execLdxAbs a s
  | .ldxZpy z => Sys2Proof.Machine.execLdxZpy z s
  | .ldxAbsy a => Sys2Proof.Machine.execLdxAbsy a s
  | .ldyImm v => Sys2Proof.Machine.execLdyImm v s
  | .ldyZp z => Sys2Proof.Machine.execLdyZp z s
  | .ldyAbs a => Sys2Proof.Machine.execLdyAbs a s
  | .ldyZpx z => Sys2Proof.Machine.execLdyZpx z s
  | .ldyAbsx a => Sys2Proof.Machine.execLdyAbsx a s
  | .staIndx z => Sys2Proof.Machine.execStaIndx z s
  | .staZp z => Sys2Proof.Machine.execStaZp z s
  | .staAbs a => Sys2Proof.Machine.execStaAbs a s
  | .staIndy z => Sys2Proof.Machine.execStaIndy z s
  | .staZpx z => Sys2Proof.Machine.execStaZpx z s
  | .staAbsy a => Sys2Proof.Machine.execStaAbsy a s
  | .staAbsx a => Sys2Proof.Machine.execStaAbsx a s
  | .stxZp z => Sys2Proof.Machine.execStxZp z s
  | .stxAbs a => Sys2Proof.Machine.execStxAbs a s
  | .stxZpy z => Sys2Proof.Machine.execStxZpy z s
  | .styZp z => Sys2Proof.Machine.execStyZp z s
  | .styAbs a => Sys2Proof.Machine.execStyAbs a s
  | .styZpx z => Sys2Proof.Machine.execStyZpx z s
  -- 42_arithmetic_compare.md
  | .adcIndx z => Sys2Proof.Machine.execAdcIndx z s
  | .adcZp z => Sys2Proof.Machine.execAdcZp z s
  | .adcImm v => Sys2Proof.Machine.execAdcImm v s
  | .adcAbs a => Sys2Proof.Machine.execAdcAbs a s
  | .adcIndy z => Sys2Proof.Machine.execAdcIndy z s
  | .adcZpx z => Sys2Proof.Machine.execAdcZpx z s
  | .adcAbsy a => Sys2Proof.Machine.execAdcAbsy a s
  | .adcAbsx a => Sys2Proof.Machine.execAdcAbsx a s
  | .sbcIndx z => Sys2Proof.Machine.execSbcIndx z s
  | .sbcZp z => Sys2Proof.Machine.execSbcZp z s
  | .sbcImm v => Sys2Proof.Machine.execSbcImm v s
  | .sbcAbs a => Sys2Proof.Machine.execSbcAbs a s
  | .sbcIndy z => Sys2Proof.Machine.execSbcIndy z s
  | .sbcZpx z => Sys2Proof.Machine.execSbcZpx z s
  | .sbcAbsy a => Sys2Proof.Machine.execSbcAbsy a s
  | .sbcAbsx a => Sys2Proof.Machine.execSbcAbsx a s
  | .cmpIndx z => Sys2Proof.Machine.execCmpIndx z s
  | .cmpZp z => Sys2Proof.Machine.execCmpZp z s
  | .cmpImm v => Sys2Proof.Machine.execCmpImm v s
  | .cmpAbs a => Sys2Proof.Machine.execCmpAbs a s
  | .cmpIndy z => Sys2Proof.Machine.execCmpIndy z s
  | .cmpZpx z => Sys2Proof.Machine.execCmpZpx z s
  | .cmpAbsy a => Sys2Proof.Machine.execCmpAbsy a s
  | .cmpAbsx a => Sys2Proof.Machine.execCmpAbsx a s
  | .cpxImm v => Sys2Proof.Machine.execCpxImm v s
  | .cpxZp z => Sys2Proof.Machine.execCpxZp z s
  | .cpxAbs a => Sys2Proof.Machine.execCpxAbs a s
  | .cpyImm v => Sys2Proof.Machine.execCpyImm v s
  | .cpyZp z => Sys2Proof.Machine.execCpyZp z s
  | .cpyAbs a => Sys2Proof.Machine.execCpyAbs a s
  -- 43_logical.md
  | .andIndx z => Sys2Proof.Machine.execAndIndx z s
  | .andZp z => Sys2Proof.Machine.execAndZp z s
  | .andImm v => Sys2Proof.Machine.execAndImm v s
  | .andAbs a => Sys2Proof.Machine.execAndAbs a s
  | .andIndy z => Sys2Proof.Machine.execAndIndy z s
  | .andZpx z => Sys2Proof.Machine.execAndZpx z s
  | .andAbsy a => Sys2Proof.Machine.execAndAbsy a s
  | .andAbsx a => Sys2Proof.Machine.execAndAbsx a s
  | .oraIndx z => Sys2Proof.Machine.execOraIndx z s
  | .oraZp z => Sys2Proof.Machine.execOraZp z s
  | .oraImm v => Sys2Proof.Machine.execOraImm v s
  | .oraAbs a => Sys2Proof.Machine.execOraAbs a s
  | .oraIndy z => Sys2Proof.Machine.execOraIndy z s
  | .oraZpx z => Sys2Proof.Machine.execOraZpx z s
  | .oraAbsy a => Sys2Proof.Machine.execOraAbsy a s
  | .oraAbsx a => Sys2Proof.Machine.execOraAbsx a s
  | .eorIndx z => Sys2Proof.Machine.execEorIndx z s
  | .eorZp z => Sys2Proof.Machine.execEorZp z s
  | .eorImm v => Sys2Proof.Machine.execEorImm v s
  | .eorAbs a => Sys2Proof.Machine.execEorAbs a s
  | .eorIndy z => Sys2Proof.Machine.execEorIndy z s
  | .eorZpx z => Sys2Proof.Machine.execEorZpx z s
  | .eorAbsy a => Sys2Proof.Machine.execEorAbsy a s
  | .eorAbsx a => Sys2Proof.Machine.execEorAbsx a s
  | .bitZp z => Sys2Proof.Machine.execBitZp z s
  | .bitAbs a => Sys2Proof.Machine.execBitAbs a s
  -- 44_shift_rotate.md
  | .aslZp z => Sys2Proof.Machine.execAslZp z s
  | .aslAcc => Sys2Proof.Machine.execAslAcc s
  | .aslAbs a => Sys2Proof.Machine.execAslAbs a s
  | .aslZpx z => Sys2Proof.Machine.execAslZpx z s
  | .aslAbsx a => Sys2Proof.Machine.execAslAbsx a s
  | .lsrZp z => Sys2Proof.Machine.execLsrZp z s
  | .lsrAcc => Sys2Proof.Machine.execLsrAcc s
  | .lsrAbs a => Sys2Proof.Machine.execLsrAbs a s
  | .lsrZpx z => Sys2Proof.Machine.execLsrZpx z s
  | .lsrAbsx a => Sys2Proof.Machine.execLsrAbsx a s
  | .rolZp z => Sys2Proof.Machine.execRolZp z s
  | .rolAcc => Sys2Proof.Machine.execRolAcc s
  | .rolAbs a => Sys2Proof.Machine.execRolAbs a s
  | .rolZpx z => Sys2Proof.Machine.execRolZpx z s
  | .rolAbsx a => Sys2Proof.Machine.execRolAbsx a s
  | .rorZp z => Sys2Proof.Machine.execRorZp z s
  | .rorAcc => Sys2Proof.Machine.execRorAcc s
  | .rorAbs a => Sys2Proof.Machine.execRorAbs a s
  | .rorZpx z => Sys2Proof.Machine.execRorZpx z s
  | .rorAbsx a => Sys2Proof.Machine.execRorAbsx a s
  -- 45_inc_dec.md
  | .incZp z => Sys2Proof.Machine.execIncZp z s
  | .incAbs a => Sys2Proof.Machine.execIncAbs a s
  | .incZpx z => Sys2Proof.Machine.execIncZpx z s
  | .incAbsx a => Sys2Proof.Machine.execIncAbsx a s
  | .decZp z => Sys2Proof.Machine.execDecZp z s
  | .decAbs a => Sys2Proof.Machine.execDecAbs a s
  | .decZpx z => Sys2Proof.Machine.execDecZpx z s
  | .decAbsx a => Sys2Proof.Machine.execDecAbsx a s
  | .inx => Sys2Proof.Machine.execInx s
  | .iny => Sys2Proof.Machine.execIny s
  | .dex => Sys2Proof.Machine.execDex s
  | .dey => Sys2Proof.Machine.execDey s
  -- 46_branch.md
  | .bcc d => Sys2Proof.Machine.execBcc d s
  | .bcs d => Sys2Proof.Machine.execBcs d s
  | .beq d => Sys2Proof.Machine.execBeq d s
  | .bne d => Sys2Proof.Machine.execBne d s
  | .bmi d => Sys2Proof.Machine.execBmi d s
  | .bpl d => Sys2Proof.Machine.execBpl d s
  | .bvc d => Sys2Proof.Machine.execBvc d s
  | .bvs d => Sys2Proof.Machine.execBvs d s
  -- 47_jump_call_system.md
  | .jmpAbs a => Sys2Proof.Machine.execJmpAbs a s
  | .jmpInd a => Sys2Proof.Machine.execJmpInd a s
  | .jsr a => Sys2Proof.Machine.execJsr a s
  | .rts => Sys2Proof.Machine.execRts s
  | .brk => Sys2Proof.Machine.execBrk s
  | .rti => Sys2Proof.Machine.execRti s
  | .nop => Sys2Proof.Machine.execNop s
  -- 48_stack.md
  | .pha => Sys2Proof.Machine.execPha s
  | .php => Sys2Proof.Machine.execPhp s
  | .pla => Sys2Proof.Machine.execPla s
  | .plp => Sys2Proof.Machine.execPlp s
  -- 49_flags_transfer.md
  | .clc => Sys2Proof.Machine.execClc s
  | .sec => Sys2Proof.Machine.execSec s
  | .cli => Sys2Proof.Machine.execCli s
  | .sei => Sys2Proof.Machine.execSei s
  | .clv => Sys2Proof.Machine.execClv s
  | .cld => Sys2Proof.Machine.execCld s
  | .sed => Sys2Proof.Machine.execSed s
  | .tax => Sys2Proof.Machine.execTax s
  | .tay => Sys2Proof.Machine.execTay s
  | .txa => Sys2Proof.Machine.execTxa s
  | .tya => Sys2Proof.Machine.execTya s
  | .tsx => Sys2Proof.Machine.execTsx s
  | .txs => Sys2Proof.Machine.execTxs s
  -- 40_dispatch.md R76
  | .illegal op => Sys2Proof.Machine.execIllegal op s

end Sys2Proof.Machine
end

