-- ==== Sys2Proof/Machine/Step.lean ====
section
/-! DEFINITION. One step, 40_dispatch.md R73 and R74, and how a test word is placed where the step fetches. -/

namespace Sys2Proof.Machine

/-- `step()` of R73: refused unless Running (R74); else the instruction at PC is fetched, decoded and run. The meaning
holds the rest of the step: resolve, execute, advance PC, count cycles (log 3). -/
def step (s : State) : Host.Outcome State Fault Refusal :=
  match s.run with
  | .running => exec s.fetch s
  | .halted => .refused .notRunning
  | .faulted _ => .refused .notRunning

/-- `s` with an opcode-table word stored at PC. A program comes to run from State.reset by being loaded from outside
(R173, log 2); this stands for that load. -/
def State.withFetchWord (s : State) (nbits w : Nat) : State := s.placeWord nbits w

end Sys2Proof.Machine
end

