-- ==== Sys2Proof/Machine/HostOps.lean ====
section
/-! DEFINITION. The host's side of the interface, 60_exceptions.md R170: reset and creation, load, the step as a call
with its result, run_until_halt, and the read-only accessors of 10_state.md R31. The host acts only between steps. -/

namespace Sys2Proof.Machine

/-- `reset(entry)` of R171: registers, flags, cycles and run state initialised, PC at the entry; memory and the
session parameter unchanged. Allowed in any run state; no vector is read. -/
def State.resetTo (s : State) (entry : Word) : State :=
  { s with a := 0x00, x := 0x00, y := 0x00, sp := 0xFD, p := 0x24, pc := entry, cycles := 0, run := .running }

/-- Creation (R172) and the reset that must follow it: any INITIAL_MEMORY, any session parameter. -/
def State.boot (initial : Memory) (brkHandler : Bool) (entry : Word) : State :=
  { State.reset with mem := initial, brkHandler := brkHandler, pc := entry }

/-- The writes of `load`, in increasing order of address (R50). -/
def Memory.loadFrom : Memory → Nat → List Byte → Memory
  | m, _, [] => m
  | m, a, v :: rest => Memory.loadFrom (m.write a v) (a + 1) rest

/-- `load(address, bytes)` of R50: rejected whole when it would run past the end of the address space (R158), else
every byte is written. Nothing but memory changes. -/
def State.load (s : State) (address : Word) (bytes : List Byte) : Except LoadOutOfRange State :=
  if 0x10000 < address.toNat + bytes.length then .error ⟨address, bytes.length⟩
  else .ok { s with mem := s.mem.loadFrom address.toNat bytes }

/-- What `step()` returns to the host (R73, R170). -/
inductive StepResult where
  | ok (cycles : Nat)
  | err (f : Fault)
  | refused
  deriving DecidableEq, Repr

/-- `step()` as the host calls it: its result and the state it leaves. The cycles returned are those added (R80);
a step from Running that ends in Faulted raised that fault (R159); a refused step changes nothing (R74). -/
def State.stepCall (s : State) : StepResult × State :=
  match step s with
  | .next t => match t.run with
    | .faulted f => (.err f, t)
    | _ => (.ok (t.cycles - s.cycles), t)
  | .fault f => (.err f, s)
  | .refused _ => (.refused, s)

/-- What `run_until_halt()` returns (R82); `unfinished` where the bound on steps is used up first (log 7). -/
inductive RunResult where
  | halted
  | err (f : Fault)
  | refused
  | unfinished
  deriving DecidableEq, Repr

/-- `run_until_halt()` of R82, with a bound on the number of steps: the spec's wrapper may not return. -/
def State.runUntilHalt : Nat → State → RunResult × State
  | 0, s => (if s.run = .running then .unfinished else .refused, s)
  | n + 1, s =>
    match s.stepCall with
    | (.refused, t) => (.refused, t)
    | (.err f, t) => (.err f, t)
    | (.ok _, t) => if t.run = .halted then (.halted, t) else State.runUntilHalt n t

/-- The accessor of P as a byte: bit 5 reads 1 and bit 4 reads 0 (R25, R26, R31). -/
def State.readP (s : State) : Byte := pullImage s.p

/-- The accessor of one flag (R31). -/
def State.readFlag (s : State) (f : Flag) : Bool := getFlag s.readP f

/-- The accessor of a memory byte (R31). -/
def State.readMem (s : State) (a : Word) : Byte := s.read8 a

end Sys2Proof.Machine
end

