-- ==== Sys2Proof/Machine/TableStep.lean ====
section
/-! DEFINITION. The step written a second time, as 40_dispatch.md R73 writes it: the table looked up by the opcode
byte, the resolver of 30_encoding.md R57 reading operand bytes from memory, and the rule of the entry's kind.
`Machine.step` runs a decoded instruction instead; that the two agree is a statement about the model. -/

namespace Sys2Proof.Machine

/-- `resolve(mode, p)` of R57: the result and the page-cross flag, reading operand bytes from `p` on. -/
def resolveAt (mode : Mode) (p : Word) (s : State) : Resolved × Bool :=
  match mode with
  | .implied => (.none, false)
  | .accumulator => (.accumulator, false)
  | .immediate => (.addr p, false)
  | .zeroPage => (.addr (zext16 (s.read8 p)), false)
  | .zeroPageX => (.addr (zext16 (s.read8 p + s.x)), false)
  | .zeroPageY => (.addr (zext16 (s.read8 p + s.y)), false)
  | .absolute => (.addr (s.read16 p), false)
  | .absoluteX =>
    let base := s.read16 p
    let ea := base + zext16 s.x
    (.addr ea, hiByte ea != hiByte base)
  | .absoluteY =>
    let base := s.read16 p
    let ea := base + zext16 s.y
    (.addr ea, hiByte ea != hiByte base)
  | .indirect => (.addr (s.pageRead16 (s.read16 p)), false)
  | .indirectX => (.addr (s.zpRead16 (s.read8 p + s.x)), false)
  | .indirectY =>
    let base := s.zpRead16 (s.read8 p)
    let ea := base + zext16 s.y
    (.addr ea, hiByte ea != hiByte base)
  | .relative =>
    let next := p + 1
    let target := next + sext16 (s.read8 p)
    (.addr target, hiByte target != hiByte next)

/-- `rule_of(kind)` of R73 and R78. -/
def ruleOf : Kind → Rule
  | .lda => ruleLda
  | .ldx => ruleLdx
  | .ldy => ruleLdy
  | .sta => ruleSta
  | .stx => ruleStx
  | .sty => ruleSty
  | .adc => ruleAdc
  | .sbc => ruleSbc
  | .cmp => ruleCmp
  | .cpx => ruleCpx
  | .cpy => ruleCpy
  | .and => ruleAnd
  | .ora => ruleOra
  | .eor => ruleEor
  | .bit => ruleBit
  | .asl => ruleAsl
  | .lsr => ruleLsr
  | .rol => ruleRol
  | .ror => ruleRor
  | .inc => ruleInc
  | .dec => ruleDec
  | .inx => ruleInx
  | .iny => ruleIny
  | .dex => ruleDex
  | .dey => ruleDey
  | .bcc => ruleBcc
  | .bcs => ruleBcs
  | .beq => ruleBeq
  | .bne => ruleBne
  | .bmi => ruleBmi
  | .bpl => ruleBpl
  | .bvc => ruleBvc
  | .bvs => ruleBvs
  | .jmp => ruleJmp
  | .jsr => ruleJsr
  | .rts => ruleRts
  | .brk => ruleBrk
  | .rti => ruleRti
  | .nop => ruleNop
  | .pha => rulePha
  | .php => rulePhp
  | .pla => rulePla
  | .plp => rulePlp
  | .clc => ruleClc
  | .sec => ruleSec
  | .cli => ruleCli
  | .sei => ruleSei
  | .clv => ruleClv
  | .cld => ruleCld
  | .sed => ruleSed
  | .tax => ruleTax
  | .tay => ruleTay
  | .txa => ruleTxa
  | .tya => ruleTya
  | .tsx => ruleTsx
  | .txs => ruleTxs

/-- `step()` of R73, stage by stage: refuse, fetch, decode, resolve, execute, advance, count. -/
def tableStep (s : State) : Out :=
  if s.run = .running then
    let op := s.read8 s.pc
    match lookup op with
    | none => .next (s.raiseFault (.illegalOpcode op s.pc))
    | some e => runResolved e (resolveAt e.mode (s.pc + 1) s) (ruleOf e.kind) s
  else .refused .notRunning

end Sys2Proof.Machine
end

