-- ==== Sys2Proof/Safety.lean ====
section
/-! DEFINITION. The terms the claims use: the invariant of a reachable state, the shape of a completion, and the
footprint of each instruction (the registers, flags and memory bytes its rule names). -/

namespace Sys2Proof.Machine

/-! ## The invariant -/

/-- U reads 1 and B reads 0 (10_state.md R25, R26). -/
def statusOk (p : Byte) : Bool := getFlag p .u && !getFlag p .b

/-- A Faulted state holds the record of an IllegalOpcode whose byte R56 lists and whose address PC still holds (R159);
no InvalidAddressing was raised (R69). -/
def faultOk (s : State) : Bool :=
  match s.run with
  | .running => true
  | .halted => true
  | .faulted (.illegalOpcode op pc) => illegalOpcodes.contains op && pc == s.pc
  | .faulted (.invalidAddressing ..) => false

/-- The invariant of the states a run reaches: memory in canonical form, P legal, the fault record legal. -/
structure Inv (s : State) : Prop where
  mem   : s.mem.wf = true
  p     : statusOk s.p = true
  fault : faultOk s = true

/-! ## Completion -/

/-- The instruction has these bytes, and executed in `s` it completes in `t`. -/
def Runs (i : Instr) (bytes : List Byte) (s t : State) : Prop := encode i = bytes ∧ exec i s = .next t

/-- PC moved on by `len`, the cycle counter by `cyc` (R79, R80). -/
def State.onward (s : State) (len : Word) (cyc : Nat) : State :=
  { s with pc := s.pc + len, cycles := s.cycles + cyc }

/-- PC set to a target, the cycle counter moved on by `cyc` (R79, R80). -/
def State.jumped (s : State) (target : Word) (cyc : Nat) : State :=
  { s with pc := target, cycles := s.cycles + cyc }

/-! ## Footprints -/

/-- The instruction is of one of these kinds; an illegal byte is of none. -/
def isKind (ks : List Kind) (i : Instr) : Bool :=
  match i.row with
  | some r => ks.contains r.kind
  | none => false

/-- A is the destination (R14), in Accumulator mode also of a shift (R68). -/
def writesA (i : Instr) : Bool :=
  isKind [.lda, .adc, .sbc, .and, .ora, .eor, .pla, .txa, .tya] i || i.operand == .accumulator

/-- X is the destination (R15). -/
def writesX (i : Instr) : Bool := isKind [.ldx, .inx, .dex, .tax, .tsx] i

/-- Y is the destination (R16). -/
def writesY (i : Instr) : Bool := isKind [.ldy, .iny, .dey, .tay] i

/-- SP is the destination or is moved by pushes and pulls (R17); BRK only in interrupt mode. -/
def writesSP (i : Instr) (s : State) : Bool :=
  isKind [.txs, .pha, .php, .pla, .plp, .jsr, .rts, .rti] i || (isKind [.brk] i && s.brkHandler)

/-- The flags an instruction writes, row by row of the summary of 10_state.md §5. -/
def flagsWritten (i : Instr) (s : State) : List Flag :=
  if isKind [.lda, .ldx, .ldy, .tax, .tay, .txa, .tya, .tsx, .pla, .and, .ora, .eor, .inc, .dec, .inx, .iny, .dex,
    .dey] i then [.n, .z]
  else if isKind [.adc, .sbc] i then [.n, .v, .z, .c]
  else if isKind [.bit] i then [.n, .v, .z]
  else if isKind [.cmp, .cpx, .cpy, .asl, .lsr, .rol, .ror] i then [.n, .z, .c]
  else if isKind [.plp, .rti] i then [.n, .v, .b, .u, .d, .i, .z, .c]
  else if isKind [.brk] i then (if s.brkHandler then [.i] else [])
  else if isKind [.clc, .sec] i then [.c]
  else if isKind [.cli, .sei] i then [.i]
  else if isKind [.cld, .sed] i then [.d]
  else if isKind [.clv] i then [.v]
  else []

/-- The effective address of an operand, where it has one, as the meaning computes it. -/
def addrOf (i : Instr) (s : State) : List Word :=
  match (resolve i.operand s).1 with
  | .addr ea => [ea]
  | _ => []

/-- The addresses an instruction stores to: its effective address for a store or a read-modify-write on memory, the
stack slots for a push, and none for any other form. -/
def storedAt (i : Instr) (s : State) : List Word :=
  if isKind [.sta, .stx, .sty, .inc, .dec, .asl, .lsr, .rol, .ror] i then addrOf i s
  else if isKind [.pha, .php] i then [stackAddr s.sp]
  else if isKind [.jsr] i then [stackAddr s.sp, stackAddr (s.sp - 1)]
  else if isKind [.brk] i && s.brkHandler then [stackAddr s.sp, stackAddr (s.sp - 1), stackAddr (s.sp - 2)]
  else []

/-- The eight conditional branches. -/
def isBranch (i : Instr) : Bool := isKind [.bcc, .bcs, .beq, .bne, .bmi, .bpl, .bvc, .bvs] i

/-- The kinds whose rule sets PC itself (R79): the branches when taken, JMP, JSR, RTS, RTI, and BRK in interrupt mode. -/
def mayRedirect (i : Instr) (s : State) : Bool :=
  isBranch i || isKind [.jmp, .jsr, .rts, .rti] i || (isKind [.brk] i && s.brkHandler)

/-- The kinds whose effect depends on P.D: the pushes of P copy it (R24), and SED, CLD, PLP and RTI write it. -/
def touchesD (i : Instr) (s : State) : Bool :=
  isKind [.php, .plp, .rti, .cld, .sed] i || (isKind [.brk] i && s.brkHandler)

end Sys2Proof.Machine
end

