-- ==== Sys2Proof/Certificates/Slice0/Obligations.lean ====
section
/-! DEFINITION. The statements for the provers, from the numbered rules of spec/. Their terms are the model's own
functions and those of Sys2Proof/Safety.lean. -/

open Sys2Proof Sys2Proof.Machine

/-! ## The machine and its step -/

/-- reset(entry) leaves A, X, Y at 0x00, SP at 0xFD, P at 0x24, PC at the entry argument, cycles at 0 and run at
Running, from any state, and changes neither memory nor the session parameter. The register values are the
spec's own decision D2. State.reset is this reset of the machine with nothing listed in memory and the entry
0x8000, which are the model's choices (logs 1 and 2). [70_reset_and_hazards.md section 1, 92_eei_decisions.md D2
and D3] -/
def Obligations.ResetToGivesArchitecturalDefaults : Prop :=
  ∀ (s : State) (entry : Word),
  let t := s.resetTo entry
  (t.a = 0x00 ∧ t.x = 0x00 ∧ t.y = 0x00 ∧ t.sp = 0xFD ∧ t.p = 0x24 ∧ t.pc = entry ∧ t.cycles = 0 ∧
    t.run = .running ∧ t.mem = s.mem ∧ t.brkHandler = s.brkHandler) ∧
  State.reset = (State.boot [] false 0x8000).resetTo 0x8000

/-- In every state step answers the refusal notRunning if and only if run is not Running; it answers no other
refusal and no fault; and the host's call of a refused step leaves the state unchanged. That a step is refused
in Halted and Faulted is the spec's decision D12. That a Running step always answers a next state, also where
the spec's step raises IllegalOpcode (R76), is the model's choice: log 5 makes a raised fault a next state whose
run is Faulted. [40_dispatch.md section 1 (the single step), 60_exceptions.md section 1, 92_eei_decisions.md
D12] -/
def Obligations.StepRefusesExactlyWhenNotRunning : Prop :=
  ∀ s : State,
  (step s = .refused .notRunning ↔ s.run ≠ .running) ∧
  (s.run ≠ .running → s.stepCall = (.refused, s)) ∧
  (s.run = .running → ∃ t, step s = .next t)

/-- When run is Running and the three bytes at PC, PC+1 and PC+2 (addresses wrapping at 16 bits) decode to i, step
at that state is exec of i at that state. exec holds the rest of the step (PC advance and cycle count, log 3),
so step adds nothing around it. [40_dispatch.md section 1 (fetch and decode)] -/
def Obligations.StepRunsTheDecodedInstruction : Prop :=
  ∀ (s : State) (i : Instr), s.run = .running →
  decode (s.read8 s.pc) (s.read8 (s.pc + 1)) (s.read8 (s.pc + 2)) = i → step s = exec i s

/-- For every well-formed instruction i: if memory from PC on (wrapping at 16 bits) holds the bytes encode i and run
is Running, then step is exec of i. Bytes after the instruction do not matter. [40_dispatch.md section 1,
30_encoding.md sections 1 and 2] -/
def Obligations.StepRunsTheEncodedInstruction : Prop :=
  ∀ (s : State) (i : Instr), i.wf = true → s.run = .running →
  (∀ k b, (encode i)[k]? = some b → s.read8 (s.pc + BitVec.ofNat 16 k) = b) → step s = exec i s

/-- In every state the model's step (decode the bytes at PC into an instruction, run that instruction's own meaning)
equals the step function as the spec writes it: refuse unless Running, read the opcode, look it up in the table,
raise IllegalOpcode where the table has no entry, resolve the entry's mode by reading operand bytes from memory,
apply the rule of the entry's kind, advance PC, count cycles. [40_dispatch.md section 1 (the step function),
30_encoding.md sections 3 and 4] -/
def Obligations.StepIsTheTableStep : Prop :=
  ∀ s : State, step s = tableStep s

/-- A step call from a state that is not Running returns refused and the same state. From Running, if the byte at PC
is a legal opcode the call returns Ok(c) with the next state, whose cycle counter is c higher, 2 <= c <= 7; if
it is not, the call returns Err of the IllegalOpcode fault with that byte and PC, and the state differs from
before only in run, which is Faulted with that record. The refusal outside Running is the spec's decision D12,
that an undocumented byte faults is its decision D5, and the sticky Faulted record its decision D13. That the
fault is a next state is the model's choice (log 5), and so is reading the call's result from the states before
and after the step (log 9). [40_dispatch.md section 1, 60_exceptions.md sections 1 and 3,
70_reset_and_hazards.md section 3, 92_eei_decisions.md D5, D12 and D13] -/
def Obligations.StepCallReturnsCyclesFaultOrRefusal : Prop :=
  ∀ s : State,
  (s.run ≠ .running → s.stepCall = (.refused, s)) ∧
  (s.run = .running →
    (∀ r, lookup (s.read8 s.pc) = some r →
      ∃ t c, step s = .next t ∧ s.stepCall = (.ok c, t) ∧ t.cycles = s.cycles + c ∧ 2 ≤ c ∧ c ≤ 7) ∧
    (lookup (s.read8 s.pc) = none →
      s.stepCall = (.err (.illegalOpcode (s.read8 s.pc) s.pc),
        { s with run := .faulted (.illegalOpcode (s.read8 s.pc) s.pc) })))

/-- Calling step repeatedly is core.run k s, the state after k steps. With a bound of n steps, from a state s:
Halted is returned with t exactly when s is Running and at most n steps reach t, which is Halted; Err(f) with t
exactly when s is Running and at most n steps reach t, which is Faulted(f); refused with t exactly when s is not
Running, and t is s; unfinished with t exactly when n steps reach t, which is still Running. When the answer is
not unfinished, every larger bound gives the same answer. The refusal is the spec's decision D12 and the Faulted
state its decision D13. The bound and the answer unfinished are the model's choice (log 7), and so is that a
fault is a next state (log 5). [40_dispatch.md section 1 (run_until_halt), 60_exceptions.md section 1,
92_eei_decisions.md D12 and D13, 93_implementation_defined.md section 1] -/
def Obligations.RunUntilHaltStopsWhereTheRunDoes : Prop :=
  ∀ (n : Nat) (s t : State),
  (s.runUntilHalt n = (.halted, t) ↔
    s.run = .running ∧ t.run = .halted ∧ ∃ k, k ≤ n ∧ core.run k s = .next t) ∧
  (∀ f, s.runUntilHalt n = (.err f, t) ↔
    s.run = .running ∧ t.run = .faulted f ∧ ∃ k, k ≤ n ∧ core.run k s = .next t) ∧
  (s.runUntilHalt n = (.refused, t) ↔ s.run ≠ .running ∧ t = s) ∧
  (s.runUntilHalt n = (.unfinished, t) ↔ t.run = .running ∧ core.run n s = .next t) ∧
  ((s.runUntilHalt n).1 ≠ .unfinished → ∀ k, s.runUntilHalt (n + k) = s.runUntilHalt n)

/-! ## Encoding -/

/-- One word of each family, written out from the table of 30_encoding.md: A9 05, 69 01, 2C 00 02, 1E F0 12, E6 10,
D0 F7, 4C 00 90, 6C FF 02, 48, B8 and the illegal byte 02 decode as the table says, and a list that ends inside
an instruction decodes to nothing. That the illegal byte is decoded as one byte is the model's choice (log 10):
the spec gives it no length (R52). [30_encoding.md section 3] -/
def Obligations.SampleWordsDecode : Prop :=
  decodeBytes [0xA9, 0x05] = some (.ldaImm 0x05, []) ∧
  decodeBytes [0x69, 0x01, 0xFF] = some (.adcImm 0x01, [0xFF]) ∧
  decodeBytes [0x2C, 0x00, 0x02] = some (.bitAbs 0x0200, []) ∧
  decodeBytes [0x1E, 0xF0, 0x12] = some (.aslAbsx 0x12F0, []) ∧
  decodeBytes [0xE6, 0x10] = some (.incZp 0x10, []) ∧
  decodeBytes [0xD0, 0xF7] = some (.bne 0xF7, []) ∧
  decodeBytes [0x4C, 0x00, 0x90] = some (.jmpAbs 0x9000, []) ∧
  decodeBytes [0x6C, 0xFF, 0x02] = some (.jmpInd 0x02FF, []) ∧
  decodeBytes [0x48] = some (.pha, []) ∧
  decodeBytes [0xB8] = some (.clv, []) ∧
  decodeBytes [0x02] = some (.illegal 0x02, []) ∧
  decodeBytes [0x4C, 0x00] = none

/-- For every well-formed instruction i, legal or illegal, with every operand value, and every list of bytes after
it: decoding encode i followed by that list answers i and that list. That an illegal byte is encoded as that one
byte is the model's choice (log 10): the spec gives it no length (R52). [30_encoding.md sections 1, 2 and 3] -/
def Obligations.DecodeOfEncodeIsTheInstruction : Prop :=
  ∀ (i : Instr) (rest : List Byte), i.wf = true → decodeBytes (encode i ++ rest) = some (i, rest)

/-- If decoding a list of bytes answers an instruction i and a rest, then i is well formed, the list is encode i
followed by the rest, and encode i is i.length bytes long, between 1 and 3. For an illegal byte the spec gives
no length (R52); that it decodes and encodes as one byte is the model's choice (log 10). [30_encoding.md
sections 1, 2 and 3] -/
def Obligations.EncodeOfDecodeIsTheBytes : Prop :=
  ∀ (bytes rest : List Byte) (i : Instr), decodeBytes bytes = some (i, rest) →
  i.wf = true ∧ bytes = encode i ++ rest ∧ (encode i).length = i.length ∧ 1 ≤ i.length ∧ i.length ≤ 3

/-- The table lists 151 rows, no two with one opcode; the illegal list has 105 byte values; and a byte value has an
entry in the table if and only if the illegal list does not hold it, the entry found being one for that byte.
[30_encoding.md section 3, 90_conflicts.md C3] -/
def Obligations.EveryByteIsLegalOrIllegalNeverBoth : Prop :=
  opcodeTable.length = 151 ∧ illegalOpcodes.length = 105 ∧
  opcodeTable.Pairwise (fun r q => r.opcode ≠ q.opcode) ∧
  (∀ op : Byte, (lookup op).isSome = !illegalOpcodes.contains op) ∧
  (∀ op : Byte, ∀ r ∈ lookup op, r.opcode = op)

/-! ## The invariant -/

/-- From every state that meets the invariant, a step that answers a next state keeps it: memory in canonical form
inside the address space, U reading 1 and B reading 0 in P, and, in a Faulted state, the record of an
IllegalOpcode whose byte is one of the 105 and whose address is PC; so InvalidAddressing is never raised. The
canonical form is the model's representation of memory (log 1). That P.B reads 0 is the spec's decision D9 and
its derivation in R25, kept by what each writer of P writes (log 11). The Faulted state with its record is the
spec's decision D13, a next state by the model's choice (log 5), and that no row reaches InvalidAddressing is
its decision D28 (log 14). [10_state.md sections 1, 3 and 4, 30_encoding.md section 3, 60_exceptions.md section
1, 92_eei_decisions.md D9, D13 and D28] -/
def Obligations.StepKeepsTheInvariant : Prop :=
  ∀ s s' : State, Inv s → step s = .next s' → Inv s'

/-- State.reset meets the invariant; so does the machine created with any canonical memory, either session parameter
and any entry. The canonical form and what State.reset lists in memory are the model's choice (log 1), and so
are the entry of State.reset (log 2), the session parameter as a field (log 4) and creation together with its
reset (log 8, the spec's decision D26). The P after reset is the spec's decision D2, and that P.B is 0 its
decision D9. [70_reset_and_hazards.md section 1, 10_state.md section 3, 92_eei_decisions.md D2, D9 and D26] -/
def Obligations.ResetHasTheInvariant : Prop :=
  Inv State.reset ∧ ∀ (m : Memory) (h : Bool) (entry : Word), m.wf = true → Inv (State.boot m h entry)

/-- From a state that meets the invariant, reset at any entry and every load that succeeds give a state that meets
it; a load that succeeds changes no field but memory. The canonical form that is kept is the model's
representation of memory (log 1). That P.B is 0 is the spec's decision D9, the P that reset leaves its decision
D2, the Faulted record its decision D13, and which loads succeed its decision D18. [20_memory.md section 6,
70_reset_and_hazards.md section 1, 10_state.md section 3, 92_eei_decisions.md D2, D9, D13 and D18] -/
def Obligations.HostOperationsKeepTheInvariant : Prop :=
  ∀ s : State, Inv s →
  (∀ entry, Inv (s.resetTo entry)) ∧
  (∀ address bytes t, s.load address bytes = .ok t → Inv t ∧ t = { s with mem := t.mem })

/-! ## Memory -/

/-- load(address, bytes) answers the rejection LoadOutOfRange with the address and the length if and only if address
+ length exceeds 0x10000 (the bound is the spec's decision D18). When it succeeds, byte i of the list is read at
address + i, every address outside the range reads as before, and no field but memory changes. [20_memory.md
section 6, 60_exceptions.md section 1, 92_eei_decisions.md D18] -/
def Obligations.LoadWritesAllOrNothing : Prop :=
  ∀ (s : State) (address : Word) (bytes : List Byte),
  (address.toNat + bytes.length > 0x10000 → s.load address bytes = .error ⟨address, bytes.length⟩) ∧
  (address.toNat + bytes.length ≤ 0x10000 → ∃ t, s.load address bytes = .ok t ∧
    t = { s with mem := t.mem } ∧
    (∀ k b, bytes[k]? = some b → t.read8 (address + BitVec.ofNat 16 k) = b) ∧
    (∀ x : Word, x.toNat < address.toNat ∨ address.toNat + bytes.length ≤ x.toNat → t.read8 x = s.read8 x))

/-- For every function from addresses to bytes there is a canonical memory that reads as it at every address, and
two canonical memories that read alike at every address are the same data. So a statement about every state
covers every INITIAL_MEMORY. How memory is represented is the model's choice (log 1). [00_scope.md section 3
(INITIAL_MEMORY), 20_memory.md section 1] -/
def Obligations.EveryInitialMemoryIsAMemory : Prop :=
  (∀ f : Word → Byte, ∃ m : Memory, m.wf = true ∧ ∀ a : Word, m.read a.toNat = f a) ∧
  (∀ m m' : Memory, m.wf = true → m'.wf = true →
    (∀ a : Word, m.read a.toNat = m'.read a.toNat) → m = m')

/-- After write8(a, v) the byte at a reads v, every other address reads as before, and no field but memory differs.
[R36] -/
def Obligations.Write8SetsOneByteAndNothingElse : Prop :=
  ∀ (s : State) (a : Word) (v : Byte),
  (s.write8 a v).read8 a = v ∧ (∀ x, x ≠ a → (s.write8 a v).read8 x = s.read8 x) ∧
  s.write8 a v = { s with mem := (s.write8 a v).mem }

/-- read16(a) is 256 * mem[a+1] + mem[a] with a+1 wrapping at 16 bits; after write16(a, w) read16(a) is w; the
pointer read of JMP indirect takes its high byte from the same page, at the low address byte plus one modulo 256
(the spec's decision D15). [20_memory.md section 2, 30_encoding.md section 4, 92_eei_decisions.md D15] -/
def Obligations.SixteenBitReadsAreLittleEndian : Prop :=
  ∀ (s : State) (a w : Word),
  (s.read16 a).toNat = 256 * (s.read8 (a + 1)).toNat + (s.read8 a).toNat ∧
  (s.write16 a w).read16 a = w ∧
  (∃ hiAddr : Word, hiAddr.toNat = a.toNat / 256 * 256 + (a.toNat % 256 + 1) % 256 ∧
    (s.pageRead16 a).toNat = 256 * (s.read8 hiAddr).toNat + (s.read8 a).toNat)

/-- ZpRead16(q) is 256 * mem[(q + 1) mod 256] + mem[q]; in particular ZpRead16(0xFF) reads 0x00FF and 0x0000. [R64] -/
def Obligations.ZpRead16NeverLeavesTheZeroPage : Prop :=
  ∀ (s : State) (q : Byte),
  (∃ hiAddr loAddr : Word, hiAddr.toNat = (q.toNat + 1) % 256 ∧ loAddr.toNat = q.toNat ∧
    (s.zpRead16 q).toNat = 256 * (s.read8 hiAddr).toNat + (s.read8 loAddr).toNat) ∧
  (s.zpRead16 0xFF).toNat = 256 * (s.read8 0x0000).toNat + (s.read8 0x00FF).toNat

/-! ## The resolver -/

/-- For every mode but Immediate, resolve(mode, p) reading operand bytes from p on gives what the resolver gives on
the operand made of those bytes (Relative with p = PC + 1); in Immediate mode it gives the address p, whose byte
is the operand value. [30_encoding.md sections 2 and 4] -/
def Obligations.ResolverReadsTheOperandBytes : Prop :=
  ∀ (s : State) (p : Word),
  resolveAt .implied p s = resolve .implied s ∧
  resolveAt .accumulator p s = resolve .accumulator s ∧
  resolveAt .zeroPage p s = resolve (.zeroPage (s.read8 p)) s ∧
  resolveAt .zeroPageX p s = resolve (.zeroPageX (s.read8 p)) s ∧
  resolveAt .zeroPageY p s = resolve (.zeroPageY (s.read8 p)) s ∧
  resolveAt .absolute p s = resolve (.absolute (s.read16 p)) s ∧
  resolveAt .absoluteX p s = resolve (.absoluteX (s.read16 p)) s ∧
  resolveAt .absoluteY p s = resolve (.absoluteY (s.read16 p)) s ∧
  resolveAt .indirect p s = resolve (.indirect (s.read16 p)) s ∧
  resolveAt .indirectX p s = resolve (.indirectX (s.read8 p)) s ∧
  resolveAt .indirectY p s = resolve (.indirectY (s.read8 p)) s ∧
  resolveAt .relative (s.pc + 1) s = resolve (.relative (s.read8 (s.pc + 1))) s ∧
  resolveAt .immediate p s = (.addr p, false) ∧
  operandOf (resolveAt .immediate p s).1 s = operandOf (resolve (.immediate (s.read8 p)) s).1 s

/-- On a decoded operand z, ZeroPage resolves to the address z, ZeroPageX to (z + X) mod 256 and ZeroPageY to (z +
Y) mod 256, the page-cross flag false in all three. [R60, R61] -/
def Obligations.ZeroPageModesStayBelow256 : Prop :=
  ∀ (s : State) (z : Byte),
  (∃ ea, resolve (.zeroPage z) s = (.addr ea, false) ∧ ea.toNat = z.toNat) ∧
  (∃ ea, resolve (.zeroPageX z) s = (.addr ea, false) ∧ ea.toNat = (z.toNat + s.x.toNat) % 256 ∧ ea < 0x0100) ∧
  (∃ ea, resolve (.zeroPageY z) s = (.addr ea, false) ∧ ea.toNat = (z.toNat + s.y.toNat) % 256 ∧ ea < 0x0100)

/-- AbsoluteX and AbsoluteY resolve to (base + index) mod 65536 and flag a page cross when the high byte changed;
IndirectX reads its address through the zero-page pointer (operand + X) mod 256 with no page cross; IndirectY
reads its base through the zero-page pointer, adds Y at 16 bits, and flags a page cross when the high byte
changed. [R63, R65, R66] -/
def Obligations.AbsoluteIndexedAndIndirectModes : Prop :=
  ∀ (s : State) (a : Word) (z : Byte),
  (∃ ea, resolve (.absoluteX a) s = (.addr ea, decide (ea.toNat / 256 ≠ a.toNat / 256)) ∧
    ea.toNat = (a.toNat + s.x.toNat) % 65536) ∧
  (∃ ea, resolve (.absoluteY a) s = (.addr ea, decide (ea.toNat / 256 ≠ a.toNat / 256)) ∧
    ea.toNat = (a.toNat + s.y.toNat) % 65536) ∧
  resolve (.indirectX z) s = (.addr (s.zpRead16 (z + s.x)), false) ∧
  (∃ ea, resolve (.indirectY z) s = (.addr ea, decide (ea.toNat / 256 ≠ (s.zpRead16 z).toNat / 256)) ∧
    ea.toNat = ((s.zpRead16 z).toNat + s.y.toNat) % 65536)

/-- For an 8-bit index i and a base b, hi(b + i) differs from hi(b) exactly when (b mod 256) + i >= 256, also where
b + i wraps past 0xFFFF. [30_encoding.md section 4, 95_test_vectors.md section 1 (E3)] -/
def Obligations.PageCrossIffLowByteCarries : Prop :=
  ∀ (base : Word) (i : Byte), pageCross base (base + zext16 i) = decide (256 ≤ base.toNat % 256 + i.toNat)

/-- Relative resolves to (PC + 2 + d) mod 65536 with d read as a signed byte; the page-cross flag is whether the
high byte of the target differs from that of PC + 2; d = 0x00 gives PC + 2 and d = 0xFE gives PC. [R70] -/
def Obligations.RelativeTargetCountsFromTheNextInstruction : Prop :=
  ∀ (s : State) (d : Byte),
  (∃ target, resolve (.relative d) s = (.addr target, decide (target.toNat / 256 ≠ (s.pc + 2).toNat / 256)) ∧
    (target.toNat : Int) = ((s.pc.toNat : Int) + 2 + d.toInt) % 65536) ∧
  branchTarget 0x00 s = s.pc + 2 ∧ branchTarget 0xFE s = s.pc

/-! ## Flags and ALU -/

/-- get of a flag just set gives the value set, for every flag but U; every other flag keeps its value; set on U
changes nothing. After SetZN(v), Z is v = 0, N is bit 7 of v, and every other flag is unchanged. [R86, R87] -/
def Obligations.FlagHelpersWriteOnlyTheirFlags : Prop :=
  (∀ (p : Byte) (f : Flag) (on : Bool),
    (f ≠ .u → getFlag (setFlag p f on) f = on) ∧
    (∀ g, g ≠ f → getFlag (setFlag p f on) g = getFlag p g) ∧
    setFlag p .u on = p) ∧
  (∀ p v : Byte,
    getFlag (setZN p v) .z = decide (v.toNat = 0) ∧ getFlag (setZN p v) .n = decide (128 ≤ v.toNat) ∧
    ∀ g, g ≠ .z → g ≠ .n → getFlag (setZN p v) g = getFlag p g)

/-- PushImage(P) reads 1 at B and U and as P at the other six flags; PullImage(v) reads 0 at B, 1 at U and as v at
the other six; pulling what was pushed gives P back when P.U = 1 and P.B = 0. The images are the spec's decision
D9. [40_dispatch.md section 3, 92_eei_decisions.md D9] -/
def Obligations.StackImagesOfP : Prop :=
  ∀ p : Byte,
  (getFlag (pushImage p) .b = true ∧ getFlag (pushImage p) .u = true ∧
    ∀ f, f ≠ .b → f ≠ .u → getFlag (pushImage p) f = getFlag p f) ∧
  (getFlag (pullImage p) .b = false ∧ getFlag (pullImage p) .u = true ∧
    ∀ f, f ≠ .b → f ≠ .u → getFlag (pullImage p) f = getFlag p f) ∧
  (statusOk p = true → pullImage (pushImage p) = p)

/-- For all bytes a, b and carry in: r + 256 * cout equals a + b + cin exactly; V is true exactly when the signed
sum leaves -128 to 127, which is when a and b have one sign and the result the other, which is bit 7 of (a ^ r)
& (b ^ r). [R89] -/
def Obligations.AddCIsExactAdditionWithCarry : Prop :=
  ∀ (a b : Byte) (cin : Bool),
  let r := (addC a b cin).1
  let cout := (addC a b cin).2.1
  let v := (addC a b cin).2.2
  r.toNat + 256 * cout.toNat = a.toNat + b.toNat + cin.toNat ∧
  v = (a.msb == b.msb && r.msb != a.msb) ∧
  v = ((a ^^^ r) &&& (b ^^^ r)).msb ∧
  (v = true ↔ a.toInt + b.toInt + cin.toNat < -128 ∨ 127 < a.toInt + b.toInt + cin.toNat)

/-- SubC(a, m, c) is AddC(a, ~m, c): its result is a - m for c = 1 and a - m - 1 for c = 0, modulo 256; carry out is
a >= m + (1 - c); V is true exactly when the signed difference leaves -128 to 127. [R90] -/
def Obligations.SubCSubtractsWithNotBorrow : Prop :=
  ∀ (a m : Byte) (c : Bool),
  subC a m c = addC a (~~~ m) c ∧
  (subC a m c).1 = (if c then a - m else a - m - 1) ∧
  (subC a m c).2.1 = decide (m.toNat + (1 - c.toNat) ≤ a.toNat) ∧
  ((subC a m c).2.2 = true ↔
    a.toInt - m.toInt - (1 - c.toNat) < -128 ∨ 127 < a.toInt - m.toInt - (1 - c.toNat))

/-- After Compare(r, m): C is r >= m unsigned, Z is r = m, N is bit 7 of r - m; these equal the carry, zero and
negative results of SubC(r, m, 1); V, I, D, B and U are unchanged. That no carry is taken in is the spec's
decision D24. [40_dispatch.md section 4, 90_conflicts.md C4, 92_eei_decisions.md D24] -/
def Obligations.CompareIsSubtractionWithoutBorrowIn : Prop :=
  ∀ p r m : Byte,
  let q := compareFlags p r m
  getFlag q .c = decide (m.toNat ≤ r.toNat) ∧ getFlag q .z = decide (r = m) ∧ getFlag q .n = (r - m).msb ∧
  getFlag q .c = (subC r m true).2.1 ∧ getFlag q .z = decide ((subC r m true).1 = 0) ∧
  getFlag q .n = (subC r m true).1.msb ∧
  ∀ f, f ≠ .c → f ≠ .z → f ≠ .n → getFlag q f = getFlag p f

/-- Asl: r + 256 * c = 2 * v. Lsr: 2 * r + c = v. Rol: r + 256 * c = 2 * v + old carry. Ror: 2 * r + c = v + 256 *
old carry; with r the result and c the carry out, 0 or 1. [R93] -/
def Obligations.ShiftsAndRotatesMoveOneBit : Prop :=
  ∀ (v : Byte) (c : Bool),
  (asl v).1.toNat + 256 * (asl v).2.toNat = 2 * v.toNat ∧
  2 * (lsr v).1.toNat + (lsr v).2.toNat = v.toNat ∧
  (rol v c).1.toNat + 256 * (rol v c).2.toNat = 2 * v.toNat + c.toNat ∧
  2 * (ror v c).1.toNat + (ror v c).2.toNat = v.toNat + 256 * c.toNat

/-! ## What each instruction does -/

/-- For every form of LDA, LDX and LDY, with the bytes of its encoding, exec answers the state in which the register
is M (the immediate, or the byte at the effective address), N and Z are those of M, PC is past the instruction,
cycles grow by the base cost and by one on a page cross of AbsoluteX, AbsoluteY and IndirectY, and nothing else
differs. [R95, R96, R97] -/
def Obligations.LoadsReplaceTheRegisterAndSetZN : Prop :=
  ∀ (s : State) (v z : Byte) (a : Word),
  let lda := fun (m : Byte) (len : Word) (cyc : Nat) => ({ s with a := m, p := setZN s.p m } : State).onward len cyc
  let ldx := fun (m : Byte) (len : Word) (cyc : Nat) => ({ s with x := m, p := setZN s.p m } : State).onward len cyc
  let ldy := fun (m : Byte) (len : Word) (cyc : Nat) => ({ s with y := m, p := setZN s.p m } : State).onward len cyc
  Runs (.ldaIndx z) [0xA1, z] s (lda (s.read8 (eaIndirectX z s)) 2 6) ∧
  Runs (.ldaZp z) [0xA5, z] s (lda (s.read8 (eaZeroPage z)) 2 3) ∧
  Runs (.ldaImm v) [0xA9, v] s (lda v 2 2) ∧
  Runs (.ldaAbs a) [0xAD, loByte a, hiByte a] s (lda (s.read8 a) 3 4) ∧
  Runs (.ldaIndy z) [0xB1, z] s (lda (s.read8 (eaIndirectY z s)) 2 (5 + (pageCross (baseIndirectY z s) (eaIndirectY z s)).toNat)) ∧
  Runs (.ldaZpx z) [0xB5, z] s (lda (s.read8 (eaZeroPageX z s)) 2 4) ∧
  Runs (.ldaAbsy a) [0xB9, loByte a, hiByte a] s (lda (s.read8 (eaAbsoluteY a s)) 3 (4 + (pageCross a (eaAbsoluteY a s)).toNat)) ∧
  Runs (.ldaAbsx a) [0xBD, loByte a, hiByte a] s (lda (s.read8 (eaAbsoluteX a s)) 3 (4 + (pageCross a (eaAbsoluteX a s)).toNat)) ∧
  Runs (.ldxImm v) [0xA2, v] s (ldx v 2 2) ∧
  Runs (.ldxZp z) [0xA6, z] s (ldx (s.read8 (eaZeroPage z)) 2 3) ∧
  Runs (.ldxAbs a) [0xAE, loByte a, hiByte a] s (ldx (s.read8 a) 3 4) ∧
  Runs (.ldxZpy z) [0xB6, z] s (ldx (s.read8 (eaZeroPageY z s)) 2 4) ∧
  Runs (.ldxAbsy a) [0xBE, loByte a, hiByte a] s (ldx (s.read8 (eaAbsoluteY a s)) 3 (4 + (pageCross a (eaAbsoluteY a s)).toNat)) ∧
  Runs (.ldyImm v) [0xA0, v] s (ldy v 2 2) ∧
  Runs (.ldyZp z) [0xA4, z] s (ldy (s.read8 (eaZeroPage z)) 2 3) ∧
  Runs (.ldyAbs a) [0xAC, loByte a, hiByte a] s (ldy (s.read8 a) 3 4) ∧
  Runs (.ldyZpx z) [0xB4, z] s (ldy (s.read8 (eaZeroPageX z s)) 2 4) ∧
  Runs (.ldyAbsx a) [0xBC, loByte a, hiByte a] s (ldy (s.read8 (eaAbsoluteX a s)) 3 (4 + (pageCross a (eaAbsoluteX a s)).toNat))

/-- For every form of STA, STX and STY exec answers the state in which the byte at the effective address is the
register, PC and cycles move on by length and base cost, and nothing else differs: no flag, no register. [R98,
R99, R100] -/
def Obligations.StoresWriteTheRegisterAtTheEffectiveAddress : Prop :=
  ∀ (s : State) (z : Byte) (a : Word),
  Runs (.staIndx z) [0x81, z] s ((s.write8 (eaIndirectX z s) s.a).onward 2 6) ∧
  Runs (.staZp z) [0x85, z] s ((s.write8 (eaZeroPage z) s.a).onward 2 3) ∧
  Runs (.staAbs a) [0x8D, loByte a, hiByte a] s ((s.write8 a s.a).onward 3 4) ∧
  Runs (.staIndy z) [0x91, z] s ((s.write8 (eaIndirectY z s) s.a).onward 2 6) ∧
  Runs (.staZpx z) [0x95, z] s ((s.write8 (eaZeroPageX z s) s.a).onward 2 4) ∧
  Runs (.staAbsy a) [0x99, loByte a, hiByte a] s ((s.write8 (eaAbsoluteY a s) s.a).onward 3 5) ∧
  Runs (.staAbsx a) [0x9D, loByte a, hiByte a] s ((s.write8 (eaAbsoluteX a s) s.a).onward 3 5) ∧
  Runs (.stxZp z) [0x86, z] s ((s.write8 (eaZeroPage z) s.x).onward 2 3) ∧
  Runs (.stxAbs a) [0x8E, loByte a, hiByte a] s ((s.write8 a s.x).onward 3 4) ∧
  Runs (.stxZpy z) [0x96, z] s ((s.write8 (eaZeroPageY z s) s.x).onward 2 4) ∧
  Runs (.styZp z) [0x84, z] s ((s.write8 (eaZeroPage z) s.y).onward 2 3) ∧
  Runs (.styAbs a) [0x8C, loByte a, hiByte a] s ((s.write8 a s.y).onward 3 4) ∧
  Runs (.styZpx z) [0x94, z] s ((s.write8 (eaZeroPageX z s) s.y).onward 2 4)

/-- For every form of ADC exec answers the state in which A is the sum of AddC(A, M, P.C), C its carry out, V its
overflow, Z and N those of the sum, PC and cycles moved on (one more on a page cross of AbsoluteX, AbsoluteY and
IndirectY); nothing else differs. [R102] -/
def Obligations.AdcAddsMemoryAndCarry : Prop :=
  ∀ (s : State) (v z : Byte) (a : Word),
  let adc := fun (m : Byte) (len : Word) (cyc : Nat) =>
    let q := addC s.a m (getFlag s.p .c)
    ({ s with a := q.1, p := setZN (setFlag (setFlag s.p .c q.2.1) .v q.2.2) q.1 } : State).onward len cyc
  Runs (.adcIndx z) [0x61, z] s (adc (s.read8 (eaIndirectX z s)) 2 6) ∧
  Runs (.adcZp z) [0x65, z] s (adc (s.read8 (eaZeroPage z)) 2 3) ∧
  Runs (.adcImm v) [0x69, v] s (adc v 2 2) ∧
  Runs (.adcAbs a) [0x6D, loByte a, hiByte a] s (adc (s.read8 a) 3 4) ∧
  Runs (.adcIndy z) [0x71, z] s (adc (s.read8 (eaIndirectY z s)) 2 (5 + (pageCross (baseIndirectY z s) (eaIndirectY z s)).toNat)) ∧
  Runs (.adcZpx z) [0x75, z] s (adc (s.read8 (eaZeroPageX z s)) 2 4) ∧
  Runs (.adcAbsy a) [0x79, loByte a, hiByte a] s (adc (s.read8 (eaAbsoluteY a s)) 3 (4 + (pageCross a (eaAbsoluteY a s)).toNat)) ∧
  Runs (.adcAbsx a) [0x7D, loByte a, hiByte a] s (adc (s.read8 (eaAbsoluteX a s)) 3 (4 + (pageCross a (eaAbsoluteX a s)).toNat))

/-- For every form of SBC exec answers the state in which A is the result of SubC(A, M, P.C), C its carry out, V its
overflow, Z and N those of the result, PC and cycles moved on (one more on a page cross of AbsoluteX, AbsoluteY
and IndirectY); nothing else differs. And the round trip: SBC of m after ADC of m gives A + c0 + c1 - 1 modulo
256, which is the spec's own derivation from R102 and R103, the resolution of its conflict C1 against the
wording of the source. [42_arithmetic_compare.md (SBC), 90_conflicts.md C1] -/
def Obligations.SbcSubtractsMemoryAndBorrow : Prop :=
  ∀ (s : State) (v z : Byte) (a : Word),
  let sbc := fun (m : Byte) (len : Word) (cyc : Nat) =>
    let q := subC s.a m (getFlag s.p .c)
    ({ s with a := q.1, p := setZN (setFlag (setFlag s.p .c q.2.1) .v q.2.2) q.1 } : State).onward len cyc
  Runs (.sbcIndx z) [0xE1, z] s (sbc (s.read8 (eaIndirectX z s)) 2 6) ∧
  Runs (.sbcZp z) [0xE5, z] s (sbc (s.read8 (eaZeroPage z)) 2 3) ∧
  Runs (.sbcImm v) [0xE9, v] s (sbc v 2 2) ∧
  Runs (.sbcAbs a) [0xED, loByte a, hiByte a] s (sbc (s.read8 a) 3 4) ∧
  Runs (.sbcIndy z) [0xF1, z] s (sbc (s.read8 (eaIndirectY z s)) 2 (5 + (pageCross (baseIndirectY z s) (eaIndirectY z s)).toNat)) ∧
  Runs (.sbcZpx z) [0xF5, z] s (sbc (s.read8 (eaZeroPageX z s)) 2 4) ∧
  Runs (.sbcAbsy a) [0xF9, loByte a, hiByte a] s (sbc (s.read8 (eaAbsoluteY a s)) 3 (4 + (pageCross a (eaAbsoluteY a s)).toNat)) ∧
  Runs (.sbcAbsx a) [0xFD, loByte a, hiByte a] s (sbc (s.read8 (eaAbsoluteX a s)) 3 (4 + (pageCross a (eaAbsoluteX a s)).toNat)) ∧
  (∀ (x m : Byte) (c0 : Bool),
    (subC (addC x m c0).1 m (addC x m c0).2.1).1 =
      x + BitVec.ofNat 8 (c0.toNat + (addC x m c0).2.1.toNat) - 1)

/-- For every form of CMP, CPX and CPY exec answers the state in which P is P after Compare(register, M), PC and
cycles moved on (one more on a page cross of the AbsoluteX, AbsoluteY and IndirectY forms of CMP); nothing else
differs. [R104, R105, R106] -/
def Obligations.ComparesWriteOnlyFlags : Prop :=
  ∀ (s : State) (v z : Byte) (a : Word),
  let cmp := fun (m : Byte) (len : Word) (cyc : Nat) => ({ s with p := compareFlags s.p s.a m } : State).onward len cyc
  let cpx := fun (m : Byte) (len : Word) (cyc : Nat) => ({ s with p := compareFlags s.p s.x m } : State).onward len cyc
  let cpy := fun (m : Byte) (len : Word) (cyc : Nat) => ({ s with p := compareFlags s.p s.y m } : State).onward len cyc
  Runs (.cmpIndx z) [0xC1, z] s (cmp (s.read8 (eaIndirectX z s)) 2 6) ∧
  Runs (.cmpZp z) [0xC5, z] s (cmp (s.read8 (eaZeroPage z)) 2 3) ∧
  Runs (.cmpImm v) [0xC9, v] s (cmp v 2 2) ∧
  Runs (.cmpAbs a) [0xCD, loByte a, hiByte a] s (cmp (s.read8 a) 3 4) ∧
  Runs (.cmpIndy z) [0xD1, z] s (cmp (s.read8 (eaIndirectY z s)) 2 (5 + (pageCross (baseIndirectY z s) (eaIndirectY z s)).toNat)) ∧
  Runs (.cmpZpx z) [0xD5, z] s (cmp (s.read8 (eaZeroPageX z s)) 2 4) ∧
  Runs (.cmpAbsy a) [0xD9, loByte a, hiByte a] s (cmp (s.read8 (eaAbsoluteY a s)) 3 (4 + (pageCross a (eaAbsoluteY a s)).toNat)) ∧
  Runs (.cmpAbsx a) [0xDD, loByte a, hiByte a] s (cmp (s.read8 (eaAbsoluteX a s)) 3 (4 + (pageCross a (eaAbsoluteX a s)).toNat)) ∧
  Runs (.cpxImm v) [0xE0, v] s (cpx v 2 2) ∧
  Runs (.cpxZp z) [0xE4, z] s (cpx (s.read8 (eaZeroPage z)) 2 3) ∧
  Runs (.cpxAbs a) [0xEC, loByte a, hiByte a] s (cpx (s.read8 a) 3 4) ∧
  Runs (.cpyImm v) [0xC0, v] s (cpy v 2 2) ∧
  Runs (.cpyZp z) [0xC4, z] s (cpy (s.read8 (eaZeroPage z)) 2 3) ∧
  Runs (.cpyAbs a) [0xCC, loByte a, hiByte a] s (cpy (s.read8 a) 3 4)

/-- For every form of AND, ORA and EOR exec answers the state in which A is A & M, A | M or A ^ M, Z and N those of
the new A, PC and cycles moved on (one more on a page cross of AbsoluteX, AbsoluteY and IndirectY); nothing else
differs. [R107, R108, R109] -/
def Obligations.LogicalsCombineAWithMemory : Prop :=
  ∀ (s : State) (v z : Byte) (a : Word),
  let conj := fun (m : Byte) (len : Word) (cyc : Nat) => ({ s with a := s.a &&& m, p := setZN s.p (s.a &&& m) } : State).onward len cyc
  let disj := fun (m : Byte) (len : Word) (cyc : Nat) => ({ s with a := s.a ||| m, p := setZN s.p (s.a ||| m) } : State).onward len cyc
  let excl := fun (m : Byte) (len : Word) (cyc : Nat) => ({ s with a := s.a ^^^ m, p := setZN s.p (s.a ^^^ m) } : State).onward len cyc
  Runs (.andIndx z) [0x21, z] s (conj (s.read8 (eaIndirectX z s)) 2 6) ∧
  Runs (.andZp z) [0x25, z] s (conj (s.read8 (eaZeroPage z)) 2 3) ∧
  Runs (.andImm v) [0x29, v] s (conj v 2 2) ∧
  Runs (.andAbs a) [0x2D, loByte a, hiByte a] s (conj (s.read8 a) 3 4) ∧
  Runs (.andIndy z) [0x31, z] s (conj (s.read8 (eaIndirectY z s)) 2 (5 + (pageCross (baseIndirectY z s) (eaIndirectY z s)).toNat)) ∧
  Runs (.andZpx z) [0x35, z] s (conj (s.read8 (eaZeroPageX z s)) 2 4) ∧
  Runs (.andAbsy a) [0x39, loByte a, hiByte a] s (conj (s.read8 (eaAbsoluteY a s)) 3 (4 + (pageCross a (eaAbsoluteY a s)).toNat)) ∧
  Runs (.andAbsx a) [0x3D, loByte a, hiByte a] s (conj (s.read8 (eaAbsoluteX a s)) 3 (4 + (pageCross a (eaAbsoluteX a s)).toNat)) ∧
  Runs (.oraIndx z) [0x01, z] s (disj (s.read8 (eaIndirectX z s)) 2 6) ∧
  Runs (.oraZp z) [0x05, z] s (disj (s.read8 (eaZeroPage z)) 2 3) ∧
  Runs (.oraImm v) [0x09, v] s (disj v 2 2) ∧
  Runs (.oraAbs a) [0x0D, loByte a, hiByte a] s (disj (s.read8 a) 3 4) ∧
  Runs (.oraIndy z) [0x11, z] s (disj (s.read8 (eaIndirectY z s)) 2 (5 + (pageCross (baseIndirectY z s) (eaIndirectY z s)).toNat)) ∧
  Runs (.oraZpx z) [0x15, z] s (disj (s.read8 (eaZeroPageX z s)) 2 4) ∧
  Runs (.oraAbsy a) [0x19, loByte a, hiByte a] s (disj (s.read8 (eaAbsoluteY a s)) 3 (4 + (pageCross a (eaAbsoluteY a s)).toNat)) ∧
  Runs (.oraAbsx a) [0x1D, loByte a, hiByte a] s (disj (s.read8 (eaAbsoluteX a s)) 3 (4 + (pageCross a (eaAbsoluteX a s)).toNat)) ∧
  Runs (.eorIndx z) [0x41, z] s (excl (s.read8 (eaIndirectX z s)) 2 6) ∧
  Runs (.eorZp z) [0x45, z] s (excl (s.read8 (eaZeroPage z)) 2 3) ∧
  Runs (.eorImm v) [0x49, v] s (excl v 2 2) ∧
  Runs (.eorAbs a) [0x4D, loByte a, hiByte a] s (excl (s.read8 a) 3 4) ∧
  Runs (.eorIndy z) [0x51, z] s (excl (s.read8 (eaIndirectY z s)) 2 (5 + (pageCross (baseIndirectY z s) (eaIndirectY z s)).toNat)) ∧
  Runs (.eorZpx z) [0x55, z] s (excl (s.read8 (eaZeroPageX z s)) 2 4) ∧
  Runs (.eorAbsy a) [0x59, loByte a, hiByte a] s (excl (s.read8 (eaAbsoluteY a s)) 3 (4 + (pageCross a (eaAbsoluteY a s)).toNat)) ∧
  Runs (.eorAbsx a) [0x5D, loByte a, hiByte a] s (excl (s.read8 (eaAbsoluteX a s)) 3 (4 + (pageCross a (eaAbsoluteX a s)).toNat))

/-- For both forms of BIT exec answers the state in which Z is A & M = 0, N is bit 7 of M and V is bit 6 of M, PC
and cycles moved on; A, memory and the other flags are unchanged. [R110] -/
def Obligations.BitTestsMemoryAgainstA : Prop :=
  ∀ (s : State) (z : Byte) (a : Word),
  let bit := fun (m : Byte) (len : Word) (cyc : Nat) => ({ s with p := setFlag (setFlag (setFlag s.p .z (s.a &&& m == 0)) .n (m.getLsbD 7)) .v (m.getLsbD 6) } : State).onward len cyc
  Runs (.bitZp z) [0x24, z] s (bit (s.read8 (eaZeroPage z)) 2 3) ∧
  Runs (.bitAbs a) [0x2C, loByte a, hiByte a] s (bit (s.read8 a) 3 4)

/-- For every form of ASL, LSR, ROL and ROR exec answers the state in which the result of the shift function
replaces the operand (A, or the byte at the effective address), C is the bit shifted out, Z and N those of the
result, PC and cycles moved on by length and base cost with no page-cross cycle; nothing else differs. [R111,
R112, R113, R114] -/
def Obligations.ShiftsWriteBackAndSetCarry : Prop :=
  ∀ (s : State) (z : Byte) (a : Word),
  let acc := fun (rc : Byte × Bool) (cyc : Nat) =>
    ({ s with a := rc.1, p := setZN (setFlag s.p .c rc.2) rc.1 } : State).onward 1 cyc
  let memory := fun (ea : Word) (rc : Byte × Bool) (len : Word) (cyc : Nat) =>
    ({ s.write8 ea rc.1 with p := setZN (setFlag s.p .c rc.2) rc.1 } : State).onward len cyc
  Runs (.aslZp z) [0x06, z] s (memory (eaZeroPage z) (asl (s.read8 (eaZeroPage z))) 2 5) ∧
  Runs .aslAcc [0x0A] s (acc (asl s.a) 2) ∧
  Runs (.aslAbs a) [0x0E, loByte a, hiByte a] s (memory a (asl (s.read8 a)) 3 6) ∧
  Runs (.aslZpx z) [0x16, z] s (memory (eaZeroPageX z s) (asl (s.read8 (eaZeroPageX z s))) 2 6) ∧
  Runs (.aslAbsx a) [0x1E, loByte a, hiByte a] s (memory (eaAbsoluteX a s) (asl (s.read8 (eaAbsoluteX a s))) 3 7) ∧
  Runs (.lsrZp z) [0x46, z] s (memory (eaZeroPage z) (lsr (s.read8 (eaZeroPage z))) 2 5) ∧
  Runs .lsrAcc [0x4A] s (acc (lsr s.a) 2) ∧
  Runs (.lsrAbs a) [0x4E, loByte a, hiByte a] s (memory a (lsr (s.read8 a)) 3 6) ∧
  Runs (.lsrZpx z) [0x56, z] s (memory (eaZeroPageX z s) (lsr (s.read8 (eaZeroPageX z s))) 2 6) ∧
  Runs (.lsrAbsx a) [0x5E, loByte a, hiByte a] s (memory (eaAbsoluteX a s) (lsr (s.read8 (eaAbsoluteX a s))) 3 7) ∧
  Runs (.rolZp z) [0x26, z] s (memory (eaZeroPage z) (rol (s.read8 (eaZeroPage z)) (getFlag s.p .c)) 2 5) ∧
  Runs .rolAcc [0x2A] s (acc (rol s.a (getFlag s.p .c)) 2) ∧
  Runs (.rolAbs a) [0x2E, loByte a, hiByte a] s (memory a (rol (s.read8 a) (getFlag s.p .c)) 3 6) ∧
  Runs (.rolZpx z) [0x36, z] s (memory (eaZeroPageX z s) (rol (s.read8 (eaZeroPageX z s)) (getFlag s.p .c)) 2 6) ∧
  Runs (.rolAbsx a) [0x3E, loByte a, hiByte a] s (memory (eaAbsoluteX a s) (rol (s.read8 (eaAbsoluteX a s)) (getFlag s.p .c)) 3 7) ∧
  Runs (.rorZp z) [0x66, z] s (memory (eaZeroPage z) (ror (s.read8 (eaZeroPage z)) (getFlag s.p .c)) 2 5) ∧
  Runs .rorAcc [0x6A] s (acc (ror s.a (getFlag s.p .c)) 2) ∧
  Runs (.rorAbs a) [0x6E, loByte a, hiByte a] s (memory a (ror (s.read8 a) (getFlag s.p .c)) 3 6) ∧
  Runs (.rorZpx z) [0x76, z] s (memory (eaZeroPageX z s) (ror (s.read8 (eaZeroPageX z s)) (getFlag s.p .c)) 2 6) ∧
  Runs (.rorAbsx a) [0x7E, loByte a, hiByte a] s (memory (eaAbsoluteX a s) (ror (s.read8 (eaAbsoluteX a s)) (getFlag s.p .c)) 3 7)

/-- For every form of INC and DEC exec answers the state in which the byte at the effective address is one more or
less modulo 256; for INX, INY, DEX and DEY the register is; Z and N are those of the result, PC and cycles moved
on; nothing else differs, C and V included. Inc(0xFF) = 0x00 and Dec(0x00) = 0xFF. [R115, R116, R117, R118,
R119, R120, R94] -/
def Obligations.IncrementsAndDecrementsWrapAndSetZN : Prop :=
  ∀ (s : State) (z : Byte) (a : Word),
  let memory := fun (ea : Word) (r : Byte) (len : Word) (cyc : Nat) =>
    ({ s.write8 ea r with p := setZN s.p r } : State).onward len cyc
  Runs (.incZp z) [0xE6, z] s (memory (eaZeroPage z) (s.read8 (eaZeroPage z) + 1) 2 5) ∧
  Runs (.incAbs a) [0xEE, loByte a, hiByte a] s (memory a (s.read8 a + 1) 3 6) ∧
  Runs (.incZpx z) [0xF6, z] s (memory (eaZeroPageX z s) (s.read8 (eaZeroPageX z s) + 1) 2 6) ∧
  Runs (.incAbsx a) [0xFE, loByte a, hiByte a] s (memory (eaAbsoluteX a s) (s.read8 (eaAbsoluteX a s) + 1) 3 7) ∧
  Runs (.decZp z) [0xC6, z] s (memory (eaZeroPage z) (s.read8 (eaZeroPage z) - 1) 2 5) ∧
  Runs (.decAbs a) [0xCE, loByte a, hiByte a] s (memory a (s.read8 a - 1) 3 6) ∧
  Runs (.decZpx z) [0xD6, z] s (memory (eaZeroPageX z s) (s.read8 (eaZeroPageX z s) - 1) 2 6) ∧
  Runs (.decAbsx a) [0xDE, loByte a, hiByte a] s (memory (eaAbsoluteX a s) (s.read8 (eaAbsoluteX a s) - 1) 3 7) ∧
  Runs .inx [0xE8] s (({ s with x := s.x + 1, p := setZN s.p (s.x + 1) } : State).onward 1 2) ∧
  Runs .iny [0xC8] s (({ s with y := s.y + 1, p := setZN s.p (s.y + 1) } : State).onward 1 2) ∧
  Runs .dex [0xCA] s (({ s with x := s.x - 1, p := setZN s.p (s.x - 1) } : State).onward 1 2) ∧
  Runs .dey [0x88] s (({ s with y := s.y - 1, p := setZN s.p (s.y - 1) } : State).onward 1 2) ∧
  inc8 0xFF = 0x00 ∧ dec8 0x00 = 0xFF ∧ (∀ b : Byte, inc8 b = b + 1 ∧ dec8 b = b - 1)

/-- For each branch exec answers, when its condition on P holds, the state whose PC is the target and whose cycles
are 3 more, or 4 when the target is not on the page of PC + 2; otherwise the state whose PC is PC + 2 and whose
cycles are 2 more. Nothing else differs. [R121, R122, R123, R124, R125, R126, R127, R128, R129] -/
def Obligations.BranchesGoToTheTargetWhenTheirFlagSays : Prop :=
  ∀ (s : State) (d : Byte),
  let branch := fun (taken : Bool) =>
    if taken then s.jumped (branchTarget d s) (3 + (pageCross (s.pc + 2) (branchTarget d s)).toNat)
    else s.onward 2 2
  Runs (.bcc d) [0x90, d] s (branch (!getFlag s.p .c)) ∧
  Runs (.bcs d) [0xB0, d] s (branch (getFlag s.p .c)) ∧
  Runs (.beq d) [0xF0, d] s (branch (getFlag s.p .z)) ∧
  Runs (.bne d) [0xD0, d] s (branch (!getFlag s.p .z)) ∧
  Runs (.bmi d) [0x30, d] s (branch (getFlag s.p .n)) ∧
  Runs (.bpl d) [0x10, d] s (branch (!getFlag s.p .n)) ∧
  Runs (.bvc d) [0x50, d] s (branch (!getFlag s.p .v)) ∧
  Runs (.bvs d) [0x70, d] s (branch (getFlag s.p .v))

/-- JMP Absolute answers the state whose PC is the operand and whose cycles are 3 more; JMP Indirect the state whose
PC is the word read at the pointer, the high byte from the pointer's own page (the spec's decision D15), with 5
cycles more. Nothing else differs. [47_jump_call_system.md (JMP), 30_encoding.md section 4, 92_eei_decisions.md
D15] -/
def Obligations.JmpGoesToItsAddressOrThroughItsPointer : Prop :=
  ∀ (s : State) (a : Word),
  Runs (.jmpAbs a) [0x4C, loByte a, hiByte a] s (s.jumped a 3) ∧
  Runs (.jmpInd a) [0x6C, loByte a, hiByte a] s
    (s.jumped (wordOf (s.read8 (wordOf (hiByte a) (loByte a + 1))) (s.read8 a)) 5)

/-- JSR answers the state with hi(PC + 2) and then lo(PC + 2) pushed, PC the operand, 6 cycles more; RTS the state
with SP two higher, PC the pulled word plus one, 6 cycles more; nothing else differs. After JSR the stack page
holds lo(PC + 2) at SP + 1 and hi(PC + 2) at SP + 2, offsets modulo 256. [R131, R132] -/
def Obligations.JsrPushesAndRtsPullsTheReturnAddress : Prop :=
  ∀ (s : State) (a : Word),
  let called := ((s.push (hiByte (s.pc + 2))).push (loByte (s.pc + 2))).jumped a 6
  let returned := ({ s with sp := s.sp + 2 } : State).jumped
    (wordOf (s.read8 (stackAddr (s.sp + 2))) (s.read8 (stackAddr (s.sp + 1))) + 1) 6
  Runs (.jsr a) [0x20, loByte a, hiByte a] s called ∧
  called.sp = s.sp - 2 ∧
  called.read8 (stackAddr (called.sp + 1)) = loByte (s.pc + 2) ∧
  called.read8 (stackAddr (called.sp + 2)) = hiByte (s.pc + 2) ∧
  Runs .rts [0x60] s returned

/-- With no handler installed BRK answers the state that is Halted, PC one on, 7 cycles more, and nothing else
changed. With a handler installed, whatever I is, it answers the state with hi(PC + 2), lo(PC + 2) and
PushImage(P) pushed in that order, I set, PC the word at 0xFFFE, 7 cycles more. Both behaviours are the spec's
decisions D6 and D7. [47_jump_call_system.md (BRK), 60_exceptions.md section 2, 92_eei_decisions.md D6 and D7] -/
def Obligations.BrkHaltsOrEntersTheHandler : Prop :=
  ∀ s : State,
  (s.brkHandler = false → Runs .brk [0x00] s (({ s with run := .halted } : State).onward 1 7)) ∧
  (s.brkHandler = true → Runs .brk [0x00] s
    (({ ((s.push (hiByte (s.pc + 2))).push (loByte (s.pc + 2))).push (pushImage s.p) with
        p := setFlag s.p .i true } : State).jumped (s.read16 0xFFFE) 7))

/-- RTI answers the state in which P is PullImage of the byte at SP + 1, PC the word at SP + 2 (low) and SP + 3
(high), SP three higher, offsets modulo 256, 6 cycles more; nothing else differs. [R134] -/
def Obligations.RtiPullsStatusAndReturnAddress : Prop :=
  ∀ s : State,
  Runs .rti [0x40] s
    (({ s with p := pullImage (s.read8 (stackAddr (s.sp + 1))), sp := s.sp + 3 } : State).jumped
      (wordOf (s.read8 (stackAddr (s.sp + 3))) (s.read8 (stackAddr (s.sp + 2)))) 6)

/-- The address SP names is 0x0100 + SP, from 0x0100 to 0x01FF. Push(v) writes v there, changes no other byte, and
SP goes down by one modulo 256; Pull reads at SP + 1 modulo 256, which SP becomes; pulling after pushing gives
the byte and the SP from before. The page is the spec's decision D10. [48_stack.md section 1, 10_state.md
section 2, 92_eei_decisions.md D10] -/
def Obligations.StackPrimitivesStayInPageOne : Prop :=
  ∀ (s : State) (v : Byte),
  (stackAddr s.sp).toNat = 256 + s.sp.toNat ∧
  (s.push v).read8 (stackAddr s.sp) = v ∧
  (∀ x, x ≠ stackAddr s.sp → (s.push v).read8 x = s.read8 x) ∧
  (s.push v).sp.toNat = (s.sp.toNat + 255) % 256 ∧
  s.pulled = s.read8 (stackAddr (s.sp + 1)) ∧ s.afterPull.sp.toNat = (s.sp.toNat + 1) % 256 ∧
  (s.push v).pulled = v ∧ (s.push v).afterPull.sp = s.sp

/-- PHA answers the state with A pushed, PC one on, 3 cycles more; PLA the state in which A is the pulled byte, Z
and N are its, SP one up, PC one on, 4 cycles more; nothing else differs. [R138, R140] -/
def Obligations.PhaPushesAndPlaPullsA : Prop :=
  ∀ s : State,
  let m := s.read8 (stackAddr (s.sp + 1))
  Runs .pha [0x48] s ((s.push s.a).onward 1 3) ∧
  Runs .pla [0x68] s (({ s with a := m, p := setZN s.p m, sp := s.sp + 1 } : State).onward 1 4)

/-- PHP answers the state with P | 0x30 pushed and P unchanged, PC one on, 3 cycles more; PLP the state in which P
is (v & 0xCF) | 0x20 for the pulled byte v, SP one up, PC one on, 4 cycles more; nothing else differs. The
images are the spec's decision D9. [48_stack.md section 2, 92_eei_decisions.md D9] -/
def Obligations.PhpPushesAndPlpPullsP : Prop :=
  ∀ s : State,
  Runs .php [0x08] s ((s.push (s.p ||| 0x30)).onward 1 3) ∧
  Runs .plp [0x28] s
    (({ s with p := (s.read8 (stackAddr (s.sp + 1)) &&& 0xCF) ||| 0x20, sp := s.sp + 1 } : State).onward 1 4)

/-- Each flag instruction answers the state in which its flag has its value, PC is one on and cycles 2 more; NOP the
state in which PC is one on and cycles 2 more; nothing else differs. [R142, R143, R144, R145, R146, R147, R148,
R135] -/
def Obligations.FlagInstructionsWriteOneFlag : Prop :=
  ∀ s : State,
  let flag := fun (f : Flag) (on : Bool) => ({ s with p := setFlag s.p f on } : State).onward 1 2
  Runs .clc [0x18] s (flag .c false) ∧
  Runs .sec [0x38] s (flag .c true) ∧
  Runs .cli [0x58] s (flag .i false) ∧
  Runs .sei [0x78] s (flag .i true) ∧
  Runs .clv [0xB8] s (flag .v false) ∧
  Runs .cld [0xD8] s (flag .d false) ∧
  Runs .sed [0xF8] s (flag .d true) ∧
  Runs .nop [0xEA] s (s.onward 1 2)

/-- Each transfer answers the state in which the destination register is the source register, Z and N are those of
the value except for TXS, PC one on and cycles 2 more; nothing else differs. [R149, R150, R151, R152, R153,
R154] -/
def Obligations.TransfersCopyOneRegister : Prop :=
  ∀ s : State,
  Runs .tax [0xAA] s (({ s with x := s.a, p := setZN s.p s.a } : State).onward 1 2) ∧
  Runs .tay [0xA8] s (({ s with y := s.a, p := setZN s.p s.a } : State).onward 1 2) ∧
  Runs .txa [0x8A] s (({ s with a := s.x, p := setZN s.p s.x } : State).onward 1 2) ∧
  Runs .tya [0x98] s (({ s with a := s.y, p := setZN s.p s.y } : State).onward 1 2) ∧
  Runs .tsx [0xBA] s (({ s with x := s.sp, p := setZN s.p s.sp } : State).onward 1 2) ∧
  Runs .txs [0x9A] s (({ s with sp := s.x } : State).onward 1 2)

/-- exec of an illegal byte answers the state whose run is Faulted with the record of the byte and PC, and nothing
else changed; and from a Running state with one of the 105 bytes at PC, whatever bytes follow, step answers that
state. That no fallback is configured and that the fault is a sticky run state are the spec's decisions D5 and
D13; that it is a next state of the model is log 5. [40_dispatch.md section 1 (decode), 60_exceptions.md section
1, 92_eei_decisions.md D5 and D13] -/
def Obligations.IllegalBytesRaiseIllegalOpcode : Prop :=
  (∀ (op : Byte) (s : State), exec (.illegal op) s = .next { s with run := .faulted (.illegalOpcode op s.pc) }) ∧
  (∀ s : State, s.run = .running → s.read8 s.pc ∈ illegalOpcodes →
    step s = .next { s with run := .faulted (.illegalOpcode (s.read8 s.pc) s.pc) })

/-! ## Frames -/

/-- When exec of any instruction answers a next state: A is unchanged unless the instruction is LDA, ADC, SBC, AND,
ORA, EOR, PLA, TXA, TYA or a shift in Accumulator mode; X unless LDX, INX, DEX, TAX, TSX; Y unless LDY, INY,
DEY, TAY; SP unless TXS, PHA, PHP, PLA, PLP, JSR, RTS, RTI, or BRK with a handler installed. [10_state.md
section 2, 41_load_store.md to 49_flags_transfer.md] -/
def Obligations.RegistersChangeOnlyAsDestinations : Prop :=
  ∀ (i : Instr) (s t : State), exec i s = .next t →
  (writesA i = false → t.a = s.a) ∧ (writesX i = false → t.x = s.x) ∧ (writesY i = false → t.y = s.y) ∧
  (writesSP i s = false → t.sp = s.sp)

/-- When exec of any instruction answers a next state, every flag that the flag summary does not name for the
instruction keeps its value, U and B included; BRK writes I only in interrupt mode; an illegal byte writes no
flag. [R20] -/
def Obligations.FlagsChangeOnlyWhereNamed : Prop :=
  ∀ (i : Instr) (s t : State) (f : Flag), exec i s = .next t → f ∉ flagsWritten i s →
  getFlag t.p f = getFlag s.p f

/-- When exec of any instruction answers a next state, every address outside the ones the instruction stores to
reads as before. These are: for STA, STX, STY, INC, DEC and a shift on memory the effective address the resolver
computes in the state before; for PHA and PHP the slot at SP; for JSR the slots at SP and SP - 1; for BRK with a
handler installed the slots at SP, SP - 1 and SP - 2; for every other form none. [20_memory.md sections 1, 2 and
5, 41_load_store.md to 48_stack.md] -/
def Obligations.MemoryChangesOnlyAtTheStoredAddresses : Prop :=
  ∀ (i : Instr) (s t : State) (x : Word), exec i s = .next t → x ∉ storedAt i s → t.read8 x = s.read8 x

/-- exec answers a next state for every instruction in every state. The session parameter never changes; run changes
only for BRK with no handler installed, which leaves Halted, and for an illegal byte, which leaves Faulted with
an IllegalOpcode record; every other instruction keeps run. The halting BRK is the spec's decision D6, that an
undocumented byte faults its decision D5, and the Faulted state its decision D13. That a fault is a next state
is the model's choice (log 5), and so is the session parameter as a field of State that nothing writes (log 4).
[10_state.md section 4, 47_jump_call_system.md (BRK), 60_exceptions.md sections 1 and 3, 92_eei_decisions.md D5,
D6 and D13] -/
def Obligations.OnlyBrkAndIllegalBytesLeaveRunning : Prop :=
  ∀ (i : Instr) (s : State), ∃ t, exec i s = .next t ∧ t.brkHandler = s.brkHandler ∧
  (t.run = s.run ∨ (i = .brk ∧ s.brkHandler = false ∧ t.run = .halted) ∨
    ∃ op, i = .illegal op ∧ t.run = .faulted (.illegalOpcode op s.pc)) ∧
  (i ≠ .brk ∨ s.brkHandler = true → (∀ op, i ≠ .illegal op) → t.run = s.run)

/-- For every legal instruction with table row r: unless it is a branch, JMP, JSR, RTS, RTI or BRK with a handler,
PC moves on by the row's length modulo 65536; unless it is a branch, cycles grow by exactly the base cost plus
one if the row takes the page-cross penalty and the resolver flags a page cross; a branch adds 2, 3 or 4.
[40_dispatch.md section 1 (advance and count), 70_reset_and_hazards.md section 3] -/
def Obligations.LegalStepsAdvanceAndCount : Prop :=
  ∀ (i : Instr) (r : Row) (s t : State), i.row = some r → exec i s = .next t →
  (mayRedirect i s = false → t.pc = s.pc + BitVec.ofNat 16 r.length) ∧
  (isBranch i = false → t.cycles = s.cycles + r.base + (r.pageCross && (resolve i.operand s).2).toNat) ∧
  (isBranch i = true → s.cycles + 2 ≤ t.cycles ∧ t.cycles ≤ s.cycles + 4 ∧ (t.pc ≠ s.pc + 2 → s.cycles + 3 ≤ t.cycles))

/-! ## Laws of the whole machine -/

/-- For every instruction but PHP, PLP, RTI, CLD, SED and BRK with a handler: executed with D set to any value, it
gives the state it gives otherwise, with D set to that value. In particular ADC and SBC compute in binary. That
D is inert is the document's word, its details the spec's decision D19. [42_arithmetic_compare.md section 1,
10_state.md section 3, 92_eei_decisions.md D19] -/
def Obligations.DecimalModeIsInert : Prop :=
  ∀ (i : Instr) (s t : State) (on : Bool), touchesD i s = false → exec i s = .next t →
  exec i { s with p := setFlag s.p .d on } = .next { t with p := setFlag t.p .d on }

/-- From every state JSR completes, and RTS executed in the state it leaves completes with PC = the call's PC + 3,
the SP, A, X, Y and P from before the call, and cycles 12 more. [47_jump_call_system.md (JSR and RTS),
48_stack.md section 1] -/
def Obligations.RtsUndoesJsr : Prop :=
  ∀ (s : State) (a : Word), ∃ t u, exec (.jsr a) s = .next t ∧ exec .rts t = .next u ∧
  u = { s with pc := s.pc + 3, cycles := s.cycles + 12, mem := t.mem }

/-- From every state whose P has U = 1 and B = 0, PHP completes, and PLP in the state it leaves completes with P and
SP as before, PC two on and cycles 7 more. [48_stack.md section 2, 92_eei_decisions.md D9] -/
def Obligations.PlpUndoesPhp : Prop :=
  ∀ s : State, statusOk s.p = true → ∃ t u, exec .php s = .next t ∧ exec .plp t = .next u ∧
  u = { s with pc := s.pc + 2, cycles := s.cycles + 7, mem := t.mem }

/-- From every state with a handler installed whose P has U = 1 and B = 0: BRK completes in a state with I set and
PC the word at 0xFFFE, and RTI in that state completes with PC two past the BRK, P (the old I with it), SP, A, X
and Y as before the BRK, and cycles 13 more. [60_exceptions.md section 2, 92_eei_decisions.md D6 and D7] -/
def Obligations.RtiUndoesTheTrapEntry : Prop :=
  ∀ s : State, s.brkHandler = true → statusOk s.p = true →
  ∃ t u, exec .brk s = .next t ∧ getFlag t.p .i = true ∧ t.pc = s.read16 0xFFFE ∧ exec .rti t = .next u ∧
  u = { s with pc := s.pc + 2, cycles := s.cycles + 13, mem := t.mem }
end

