-- ==== Sys2Proof/Laws/State.lean ====
section
/-! SUPPORT. One lemma per field per state update, each true by unfolding the update once. -/

namespace Sys2Proof.Machine

variable (s : State)

@[simp] theorem State.write8_a (a : Word) (v : Byte) : (s.write8 a v).a = s.a := rfl
@[simp] theorem State.write8_x (a : Word) (v : Byte) : (s.write8 a v).x = s.x := rfl
@[simp] theorem State.write8_y (a : Word) (v : Byte) : (s.write8 a v).y = s.y := rfl
@[simp] theorem State.write8_sp (a : Word) (v : Byte) : (s.write8 a v).sp = s.sp := rfl
@[simp] theorem State.write8_pc (a : Word) (v : Byte) : (s.write8 a v).pc = s.pc := rfl
@[simp] theorem State.write8_p (a : Word) (v : Byte) : (s.write8 a v).p = s.p := rfl
@[simp] theorem State.write8_mem (a : Word) (v : Byte) : (s.write8 a v).mem = s.mem.write a.toNat v := rfl
@[simp] theorem State.write8_cycles (a : Word) (v : Byte) : (s.write8 a v).cycles = s.cycles := rfl
@[simp] theorem State.write8_run (a : Word) (v : Byte) : (s.write8 a v).run = s.run := rfl
@[simp] theorem State.write8_brkHandler (a : Word) (v : Byte) : (s.write8 a v).brkHandler = s.brkHandler := rfl

@[simp] theorem State.push_a (v : Byte) : (s.push v).a = s.a := rfl
@[simp] theorem State.push_x (v : Byte) : (s.push v).x = s.x := rfl
@[simp] theorem State.push_y (v : Byte) : (s.push v).y = s.y := rfl
@[simp] theorem State.push_sp (v : Byte) : (s.push v).sp = s.sp - 1 := rfl
@[simp] theorem State.push_pc (v : Byte) : (s.push v).pc = s.pc := rfl
@[simp] theorem State.push_p (v : Byte) : (s.push v).p = s.p := rfl
@[simp] theorem State.push_mem (v : Byte) : (s.push v).mem = s.mem.write (stackAddr s.sp).toNat v := rfl
@[simp] theorem State.push_cycles (v : Byte) : (s.push v).cycles = s.cycles := rfl
@[simp] theorem State.push_run (v : Byte) : (s.push v).run = s.run := rfl
@[simp] theorem State.push_brkHandler (v : Byte) : (s.push v).brkHandler = s.brkHandler := rfl

@[simp] theorem State.pushWord_a (w : Word) : (s.pushWord w).a = s.a := by
  simp [State.pushWord]
@[simp] theorem State.pushWord_x (w : Word) : (s.pushWord w).x = s.x := by
  simp [State.pushWord]
@[simp] theorem State.pushWord_y (w : Word) : (s.pushWord w).y = s.y := by
  simp [State.pushWord]
@[simp] theorem State.pushWord_sp (w : Word) : (s.pushWord w).sp = s.sp - 1 - 1 := by
  simp [State.pushWord]
@[simp] theorem State.pushWord_pc (w : Word) : (s.pushWord w).pc = s.pc := by
  simp [State.pushWord]
@[simp] theorem State.pushWord_p (w : Word) : (s.pushWord w).p = s.p := by
  simp [State.pushWord]
@[simp] theorem State.pushWord_mem (w : Word) : (s.pushWord w).mem = (s.mem.write (stackAddr s.sp).toNat (hiByte w)).write (stackAddr (s.sp - 1)).toNat (loByte w) := by
  simp [State.pushWord]
@[simp] theorem State.pushWord_cycles (w : Word) : (s.pushWord w).cycles = s.cycles := by
  simp [State.pushWord]
@[simp] theorem State.pushWord_run (w : Word) : (s.pushWord w).run = s.run := by
  simp [State.pushWord]
@[simp] theorem State.pushWord_brkHandler (w : Word) : (s.pushWord w).brkHandler = s.brkHandler := by
  simp [State.pushWord]

@[simp] theorem State.afterPull_a : (s.afterPull).a = s.a := rfl
@[simp] theorem State.afterPull_x : (s.afterPull).x = s.x := rfl
@[simp] theorem State.afterPull_y : (s.afterPull).y = s.y := rfl
@[simp] theorem State.afterPull_sp : (s.afterPull).sp = s.sp + 1 := rfl
@[simp] theorem State.afterPull_pc : (s.afterPull).pc = s.pc := rfl
@[simp] theorem State.afterPull_p : (s.afterPull).p = s.p := rfl
@[simp] theorem State.afterPull_mem : (s.afterPull).mem = s.mem := rfl
@[simp] theorem State.afterPull_cycles : (s.afterPull).cycles = s.cycles := rfl
@[simp] theorem State.afterPull_run : (s.afterPull).run = s.run := rfl
@[simp] theorem State.afterPull_brkHandler : (s.afterPull).brkHandler = s.brkHandler := rfl

@[simp] theorem State.raiseFault_a (f : Fault) : (s.raiseFault f).a = s.a := rfl
@[simp] theorem State.raiseFault_x (f : Fault) : (s.raiseFault f).x = s.x := rfl
@[simp] theorem State.raiseFault_y (f : Fault) : (s.raiseFault f).y = s.y := rfl
@[simp] theorem State.raiseFault_sp (f : Fault) : (s.raiseFault f).sp = s.sp := rfl
@[simp] theorem State.raiseFault_pc (f : Fault) : (s.raiseFault f).pc = s.pc := rfl
@[simp] theorem State.raiseFault_p (f : Fault) : (s.raiseFault f).p = s.p := rfl
@[simp] theorem State.raiseFault_mem (f : Fault) : (s.raiseFault f).mem = s.mem := rfl
@[simp] theorem State.raiseFault_cycles (f : Fault) : (s.raiseFault f).cycles = s.cycles := rfl
@[simp] theorem State.raiseFault_run (f : Fault) : (s.raiseFault f).run = .faulted f := rfl
@[simp] theorem State.raiseFault_brkHandler (f : Fault) : (s.raiseFault f).brkHandler = s.brkHandler := rfl

@[simp] theorem State.trapEntry_a (w : Word) : (s.trapEntry w).a = s.a := by
  simp [State.trapEntry]
@[simp] theorem State.trapEntry_x (w : Word) : (s.trapEntry w).x = s.x := by
  simp [State.trapEntry]
@[simp] theorem State.trapEntry_y (w : Word) : (s.trapEntry w).y = s.y := by
  simp [State.trapEntry]
@[simp] theorem State.trapEntry_sp (w : Word) : (s.trapEntry w).sp = s.sp - 1 - 1 - 1 := by
  simp [State.trapEntry]
@[simp] theorem State.trapEntry_pc (w : Word) : (s.trapEntry w).pc = s.pc := by
  simp [State.trapEntry]
@[simp] theorem State.trapEntry_p (w : Word) : (s.trapEntry w).p = setFlag s.p .i true := by
  simp [State.trapEntry]
@[simp] theorem State.trapEntry_mem (w : Word) : (s.trapEntry w).mem = ((s.pushWord w).push (pushImage s.p)).mem := by
  simp [State.trapEntry]
@[simp] theorem State.trapEntry_cycles (w : Word) : (s.trapEntry w).cycles = s.cycles := by
  simp [State.trapEntry]
@[simp] theorem State.trapEntry_run (w : Word) : (s.trapEntry w).run = s.run := by
  simp [State.trapEntry]
@[simp] theorem State.trapEntry_brkHandler (w : Word) : (s.trapEntry w).brkHandler = s.brkHandler := by
  simp [State.trapEntry]

@[simp] theorem State.trapReturn_a : (s.trapReturn).a = s.a := by
  simp [State.trapReturn]
@[simp] theorem State.trapReturn_x : (s.trapReturn).x = s.x := by
  simp [State.trapReturn]
@[simp] theorem State.trapReturn_y : (s.trapReturn).y = s.y := by
  simp [State.trapReturn]
@[simp] theorem State.trapReturn_sp : (s.trapReturn).sp = s.sp + 1 + 1 + 1 := by
  simp [State.trapReturn]
@[simp] theorem State.trapReturn_pc : (s.trapReturn).pc = s.pc := by
  simp [State.trapReturn]
@[simp] theorem State.trapReturn_p : (s.trapReturn).p = pullImage s.pulled := by
  simp [State.trapReturn]
@[simp] theorem State.trapReturn_mem : (s.trapReturn).mem = s.mem := by
  simp [State.trapReturn]
@[simp] theorem State.trapReturn_cycles : (s.trapReturn).cycles = s.cycles := by
  simp [State.trapReturn]
@[simp] theorem State.trapReturn_run : (s.trapReturn).run = s.run := by
  simp [State.trapReturn]
@[simp] theorem State.trapReturn_brkHandler : (s.trapReturn).brkHandler = s.brkHandler := by
  simp [State.trapReturn]

@[simp] theorem State.withSum_a (r : Byte × Bool × Bool) : (s.withSum r).a = r.1 := rfl
@[simp] theorem State.withSum_x (r : Byte × Bool × Bool) : (s.withSum r).x = s.x := rfl
@[simp] theorem State.withSum_y (r : Byte × Bool × Bool) : (s.withSum r).y = s.y := rfl
@[simp] theorem State.withSum_sp (r : Byte × Bool × Bool) : (s.withSum r).sp = s.sp := rfl
@[simp] theorem State.withSum_pc (r : Byte × Bool × Bool) : (s.withSum r).pc = s.pc := rfl
@[simp] theorem State.withSum_p (r : Byte × Bool × Bool) : (s.withSum r).p = setZN (setFlag (setFlag s.p .c r.2.1) .v r.2.2) r.1 := rfl
@[simp] theorem State.withSum_mem (r : Byte × Bool × Bool) : (s.withSum r).mem = s.mem := rfl
@[simp] theorem State.withSum_cycles (r : Byte × Bool × Bool) : (s.withSum r).cycles = s.cycles := rfl
@[simp] theorem State.withSum_run (r : Byte × Bool × Bool) : (s.withSum r).run = s.run := rfl
@[simp] theorem State.withSum_brkHandler (r : Byte × Bool × Bool) : (s.withSum r).brkHandler = s.brkHandler := rfl

@[simp] theorem State.resetTo_a (w : Word) : (s.resetTo w).a = 0x00 := rfl
@[simp] theorem State.resetTo_x (w : Word) : (s.resetTo w).x = 0x00 := rfl
@[simp] theorem State.resetTo_y (w : Word) : (s.resetTo w).y = 0x00 := rfl
@[simp] theorem State.resetTo_sp (w : Word) : (s.resetTo w).sp = 0xFD := rfl
@[simp] theorem State.resetTo_pc (w : Word) : (s.resetTo w).pc = w := rfl
@[simp] theorem State.resetTo_p (w : Word) : (s.resetTo w).p = 0x24 := rfl
@[simp] theorem State.resetTo_mem (w : Word) : (s.resetTo w).mem = s.mem := rfl
@[simp] theorem State.resetTo_cycles (w : Word) : (s.resetTo w).cycles = 0 := rfl
@[simp] theorem State.resetTo_run (w : Word) : (s.resetTo w).run = .running := rfl
@[simp] theorem State.resetTo_brkHandler (w : Word) : (s.resetTo w).brkHandler = s.brkHandler := rfl

@[simp] theorem State.onward_a (w : Word) (k : Nat) : (s.onward w k).a = s.a := rfl
@[simp] theorem State.onward_x (w : Word) (k : Nat) : (s.onward w k).x = s.x := rfl
@[simp] theorem State.onward_y (w : Word) (k : Nat) : (s.onward w k).y = s.y := rfl
@[simp] theorem State.onward_sp (w : Word) (k : Nat) : (s.onward w k).sp = s.sp := rfl
@[simp] theorem State.onward_pc (w : Word) (k : Nat) : (s.onward w k).pc = s.pc + w := rfl
@[simp] theorem State.onward_p (w : Word) (k : Nat) : (s.onward w k).p = s.p := rfl
@[simp] theorem State.onward_mem (w : Word) (k : Nat) : (s.onward w k).mem = s.mem := rfl
@[simp] theorem State.onward_cycles (w : Word) (k : Nat) : (s.onward w k).cycles = s.cycles + k := rfl
@[simp] theorem State.onward_run (w : Word) (k : Nat) : (s.onward w k).run = s.run := rfl
@[simp] theorem State.onward_brkHandler (w : Word) (k : Nat) : (s.onward w k).brkHandler = s.brkHandler := rfl

@[simp] theorem State.jumped_a (w : Word) (k : Nat) : (s.jumped w k).a = s.a := rfl
@[simp] theorem State.jumped_x (w : Word) (k : Nat) : (s.jumped w k).x = s.x := rfl
@[simp] theorem State.jumped_y (w : Word) (k : Nat) : (s.jumped w k).y = s.y := rfl
@[simp] theorem State.jumped_sp (w : Word) (k : Nat) : (s.jumped w k).sp = s.sp := rfl
@[simp] theorem State.jumped_pc (w : Word) (k : Nat) : (s.jumped w k).pc = w := rfl
@[simp] theorem State.jumped_p (w : Word) (k : Nat) : (s.jumped w k).p = s.p := rfl
@[simp] theorem State.jumped_mem (w : Word) (k : Nat) : (s.jumped w k).mem = s.mem := rfl
@[simp] theorem State.jumped_cycles (w : Word) (k : Nat) : (s.jumped w k).cycles = s.cycles + k := rfl
@[simp] theorem State.jumped_run (w : Word) (k : Nat) : (s.jumped w k).run = s.run := rfl
@[simp] theorem State.jumped_brkHandler (w : Word) (k : Nat) : (s.jumped w k).brkHandler = s.brkHandler := rfl

/-! A committed effect (R79, R80) -/

variable (e : Effect) (r : Row) (b : Bool)

@[simp] theorem Effect.commit_a : (e.commit r b s).a = e.state.a := rfl
@[simp] theorem Effect.commit_x : (e.commit r b s).x = e.state.x := rfl
@[simp] theorem Effect.commit_y : (e.commit r b s).y = e.state.y := rfl
@[simp] theorem Effect.commit_sp : (e.commit r b s).sp = e.state.sp := rfl
@[simp] theorem Effect.commit_pc : (e.commit r b s).pc = e.target.getD (s.pc + BitVec.ofNat 16 r.length) := rfl
@[simp] theorem Effect.commit_p : (e.commit r b s).p = e.state.p := rfl
@[simp] theorem Effect.commit_mem : (e.commit r b s).mem = e.state.mem := rfl
@[simp] theorem Effect.commit_cycles : (e.commit r b s).cycles = s.cycles + (r.base + (r.pageCross && b).toNat + e.extra) := rfl
@[simp] theorem Effect.commit_run : (e.commit r b s).run = e.state.run := rfl
@[simp] theorem Effect.commit_brkHandler : (e.commit r b s).brkHandler = e.state.brkHandler := rfl

@[simp] theorem Effect.plain_state : (Effect.plain s).state = s := rfl
@[simp] theorem Effect.plain_target : (Effect.plain s).target = none := rfl
@[simp] theorem Effect.plain_extra : (Effect.plain s).extra = 0 := rfl
@[simp] theorem Effect.goto_state (w : Word) : (Effect.goto s w).state = s := rfl
@[simp] theorem Effect.goto_target (w : Word) : (Effect.goto s w).target = some w := rfl
@[simp] theorem Effect.goto_extra (w : Word) : (Effect.goto s w).extra = 0 := rfl

end Sys2Proof.Machine
end

