-- ==== Sys2Proof/Laws/Memory.lean ====
section
/-! SUPPORT. The laws of memory: a read after a write, and that every operation keeps the canonical form. -/

namespace Sys2Proof.Machine

@[simp] theorem Memory.read_nil (a : Nat) : Memory.read [] a = Config.initialByte := rfl

@[simp] theorem Memory.read_cons (k : Nat) (v : Byte) (rest : Memory) (a : Nat) :
    Memory.read ((k, v) :: rest) a = if k = a then v else Memory.read rest a := rfl

/-! ## Reading -/

theorem Memory.read_erase_same (m : Memory) (a : Nat) : (m.erase a).read a = Config.initialByte := by
  induction m with
  | nil => rfl
  | cons c rest ih =>
    obtain ⟨k, v⟩ := c
    by_cases h : k = a <;> simp_all [Memory.erase]

theorem Memory.read_erase_other (m : Memory) {a b : Nat} (hab : b ≠ a) : (m.erase a).read b = m.read b := by
  induction m with
  | nil => rfl
  | cons c rest ih =>
    obtain ⟨k, v⟩ := c
    by_cases h : k = a
    · have hb : a ≠ b := Ne.symm hab
      simp_all [Memory.erase]
    · by_cases h2 : k = b <;> simp_all [Memory.erase]

theorem Memory.read_insert_other (m : Memory) {a b : Nat} (v : Byte) (hab : b ≠ a) :
    (m.insert a v).read b = m.read b := by
  induction m with
  | nil => simp [Memory.insert, Ne.symm hab]
  | cons c rest ih =>
    obtain ⟨k, w⟩ := c
    by_cases h : a < k <;> simp [Memory.insert, h, ih, Ne.symm hab]

theorem Memory.read_insert_erase_same (m : Memory) (a : Nat) (v : Byte) :
    ((m.erase a).insert a v).read a = v := by
  induction m with
  | nil => simp [Memory.erase, Memory.insert]
  | cons c rest ih =>
    obtain ⟨k, w⟩ := c
    by_cases h : k = a
    · simpa [Memory.erase, h] using ih
    · have he : Memory.erase ((k, w) :: rest) a = (k, w) :: Memory.erase rest a := by simp [Memory.erase, h]
      by_cases h2 : a < k
      · simp [he, Memory.insert, h2]
      · simp [he, Memory.insert, h2, h, ih]

/-- A byte reads back as written. -/
@[simp] theorem Memory.read_write_same (m : Memory) (a : Nat) (v : Byte) : (m.write a v).read a = v := by
  unfold Memory.write
  split
  · next h => rw [Memory.read_erase_same, h]
  · exact Memory.read_insert_erase_same m a v

/-- A write leaves every other byte alone. -/
theorem Memory.read_write_other (m : Memory) {a b : Nat} (v : Byte) (hab : b ≠ a) :
    (m.write a v).read b = m.read b := by
  unfold Memory.write
  split
  · exact Memory.read_erase_other m hab
  · rw [Memory.read_insert_other _ v hab, Memory.read_erase_other m hab]

theorem Memory.read_write (m : Memory) (a b : Nat) (v : Byte) :
    (m.write a v).read b = if b = a then v else m.read b := by
  by_cases h : b = a
  · simp [h]
  · simp [h, Memory.read_write_other m v h]

/-! ## The canonical form -/

theorem Memory.wfFrom_cons (lo k : Nat) (v : Byte) (rest : Memory) :
    Memory.wfFrom lo ((k, v) :: rest) = true ↔
      lo ≤ k ∧ k < 65536 ∧ v ≠ Config.initialByte ∧ Memory.wfFrom (k + 1) rest = true := by
  simp [Memory.wfFrom, and_assoc]

theorem Memory.wfFrom_mono {lo lo' : Nat} (h : lo' ≤ lo) {m : Memory} (hm : Memory.wfFrom lo m = true) :
    Memory.wfFrom lo' m = true := by
  cases m with
  | nil => rfl
  | cons c rest =>
    obtain ⟨k, v⟩ := c
    rw [Memory.wfFrom_cons] at hm ⊢
    exact ⟨by omega, hm.2⟩

theorem Memory.wfFrom_erase {lo : Nat} {m : Memory} (hm : Memory.wfFrom lo m = true) (a : Nat) :
    Memory.wfFrom lo (m.erase a) = true := by
  induction m generalizing lo with
  | nil => rfl
  | cons c rest ih =>
    obtain ⟨k, v⟩ := c
    rw [Memory.wfFrom_cons] at hm
    have hrest : Memory.wfFrom (k + 1) (Memory.erase rest a) = true := ih hm.2.2.2
    by_cases h : k = a
    · have : Memory.erase ((k, v) :: rest) a = Memory.erase rest a := by simp [Memory.erase, h]
      exact this ▸ Memory.wfFrom_mono (by omega) hrest
    · have : Memory.erase ((k, v) :: rest) a = (k, v) :: Memory.erase rest a := by simp [Memory.erase, h]
      rw [this, Memory.wfFrom_cons]
      exact ⟨hm.1, hm.2.1, hm.2.2.1, hrest⟩

theorem Memory.wfFrom_insert {lo a : Nat} {m : Memory} {v : Byte} (hm : Memory.wfFrom lo m = true)
    (hlo : lo ≤ a) (ha : a < 65536) (hv : v ≠ Config.initialByte) (hout : ∀ c ∈ m, c.1 ≠ a) :
    Memory.wfFrom lo (m.insert a v) = true := by
  induction m generalizing lo with
  | nil => simp [Memory.insert, Memory.wfFrom, hlo, ha, hv]
  | cons c rest ih =>
    obtain ⟨k, w⟩ := c
    rw [Memory.wfFrom_cons] at hm
    have hk : k ≠ a := hout (k, w) (by simp)
    by_cases h : a < k
    · simp only [Memory.insert, h, if_true, Memory.wfFrom_cons]
      exact ⟨hlo, ha, hv, by omega, hm.2⟩
    · simp only [Memory.insert, h, if_false, Memory.wfFrom_cons]
      exact ⟨hm.1, hm.2.1, hm.2.2.1, ih hm.2.2.2 (by omega) (fun c hc => hout c (by simp [hc]))⟩

/-- A write inside the address space keeps the canonical form. -/
theorem Memory.wf_write {m : Memory} (hm : m.wf = true) {a : Nat} (ha : a < 65536) (v : Byte) :
    (m.write a v).wf = true := by
  unfold Memory.write
  split
  · exact Memory.wfFrom_erase hm a
  · next hv =>
    refine Memory.wfFrom_insert (Memory.wfFrom_erase hm a) (Nat.zero_le a) ha hv (fun c hc => ?_)
    simpa [Memory.erase] using (List.mem_filter.mp hc).2

/-! ## The same for the primitives of the state -/

@[simp] theorem State.read8_write8_same (s : State) (a : Word) (v : Byte) : (s.write8 a v).read8 a = v :=
  Memory.read_write_same ..

theorem State.read8_write8_other (s : State) {a b : Word} (v : Byte) (h : b ≠ a) :
    (s.write8 a v).read8 b = s.read8 b :=
  Memory.read_write_other _ _ (fun hn => h (BitVec.eq_of_toNat_eq hn))

theorem State.read8_write8 (s : State) (a b : Word) (v : Byte) :
    (s.write8 a v).read8 b = if b = a then v else s.read8 b := by
  by_cases h : b = a
  · simp [h]
  · simp [h, State.read8_write8_other s v h]

/-- A read depends on memory alone. -/
theorem State.read8_congr {s t : State} (h : t.mem = s.mem) (a : Word) : t.read8 a = s.read8 a := by
  simp only [State.read8, h]

theorem State.read8_push (s : State) (v : Byte) (b : Word) :
    (s.push v).read8 b = if b = stackAddr s.sp then v else s.read8 b :=
  State.read8_write8 s (stackAddr s.sp) b v

theorem State.read8_pushWord (s : State) (w b : Word) :
    (s.pushWord w).read8 b =
      if b = stackAddr (s.sp - 1) then loByte w else if b = stackAddr s.sp then hiByte w else s.read8 b := by
  rw [State.pushWord, State.read8_push, State.read8_push, State.push_sp]

theorem State.read8_trapEntry (s : State) (w b : Word) :
    (s.trapEntry w).read8 b =
      if b = stackAddr (s.sp - 1 - 1) then pushImage s.p else (s.pushWord w).read8 b := by
  rw [State.read8_congr (State.trapEntry_mem s w), State.read8_push, State.pushWord_sp]

theorem State.wf_write8 {s : State} (h : s.mem.wf = true) (a : Word) (v : Byte) :
    (s.write8 a v).mem.wf = true :=
  Memory.wf_write h a.isLt v

theorem State.wf_push {s : State} (h : s.mem.wf = true) (v : Byte) : (s.push v).mem.wf = true :=
  State.wf_write8 h _ v

theorem State.wf_pushWord {s : State} (h : s.mem.wf = true) (w : Word) : (s.pushWord w).mem.wf = true :=
  State.wf_push (State.wf_push h _) _

theorem State.wf_trapEntry {s : State} (h : s.mem.wf = true) (w : Word) : (s.trapEntry w).mem.wf = true :=
  State.trapEntry_mem s w ▸ State.wf_push (State.wf_pushWord h w) _

theorem State.wf_placeWord {s : State} (h : s.mem.wf = true) (nbits w : Nat) :
    (s.placeWord nbits w).mem.wf = true :=
  State.wf_write8 (State.wf_write8 (State.wf_write8 h _ _) _ _) _ _

end Sys2Proof.Machine
end

