-- ==== Sys2Proof/Laws/Exec.lean ====
section
/-! SUPPORT. What the shared operations can do, said once: the dispatch of a legal instruction as its row, operand and
rule; the two outcomes of a resolved row; the operand helpers; and the step. -/

namespace Sys2Proof.Machine

/-! ## Dispatch -/

/-- A legal instruction runs its row with its operand and the rule of its row's kind (R78). -/
theorem exec_of_row {i : Instr} {r : Row} (h : i.row = some r) (s : State) :
    exec i s = runRow r i.operand (ruleOf r.kind) s := by
  cases i <;> cases h <;> rfl

/-- An instruction without a row is an illegal byte value. -/
theorem eq_illegal_of_row_none {i : Instr} (h : i.row = none) : ∃ op, i = .illegal op := by
  cases i <;> first | exact ⟨_, rfl⟩ | cases h

theorem exec_illegal (op : Byte) (s : State) :
    exec (.illegal op) s = .next (s.raiseFault (.illegalOpcode op s.pc)) := rfl

/-! ## A resolved row -/

/-- The two ways a resolved row ends: its effect committed whole, or InvalidAddressing raised and nothing committed
(R81). It never stops. -/
theorem runResolved_cases (r : Row) (rp : Resolved × Bool) (rule : Rule) (s : State) :
    (∃ e, rule rp.1 rp.2 s = some e ∧ runResolved r rp rule s = .next (e.commit r rp.2 s)) ∨
    (rule rp.1 rp.2 s = none ∧
      runResolved r rp rule s = .next (s.raiseFault (.invalidAddressing r.opcode s.pc r.mode))) := by
  unfold runResolved
  cases h : rule rp.1 rp.2 s with
  | some e => exact .inl ⟨e, rfl, rfl⟩
  | none => exact .inr ⟨rfl, rfl⟩

theorem runResolved_of_some {r : Row} {rp : Resolved × Bool} {rule : Rule} {s : State} {e : Effect}
    (h : rule rp.1 rp.2 s = some e) : runResolved r rp rule s = .next (e.commit r rp.2 s) := by
  simp [runResolved, h]

/-! ## Operand helpers (R83 to R85) -/

@[simp] theorem operandOf_addr (ea : Word) (s : State) : operandOf (.addr ea) s = some (s.read8 ea) := rfl
@[simp] theorem operandOf_accumulator (s : State) : operandOf .accumulator s = some s.a := rfl
@[simp] theorem operandOf_literal (v : Byte) (s : State) : operandOf (.literal v) s = some v := rfl
@[simp] theorem operandOf_none (s : State) : operandOf .none s = Option.none := rfl
@[simp] theorem writeBack_addr (ea : Word) (v : Byte) (s : State) :
    writeBack (.addr ea) v s = some (s.write8 ea v) := rfl
@[simp] theorem writeBack_accumulator (v : Byte) (s : State) :
    writeBack .accumulator v s = some { s with a := v } := rfl
@[simp] theorem eaOf_addr (ea : Word) : eaOf (.addr ea) = some ea := rfl

/-! ## The step -/

theorem step_running {s : State} (h : s.run = .running) : step s = exec s.fetch s := by
  simp [step, h]

theorem step_not_running {s : State} (h : s.run ≠ .running) : step s = .refused .notRunning := by
  unfold step
  split <;> first | rfl | (next h' => exact absurd h' h)

/-- What a step that answers a next state did. -/
theorem step_next {s t : State} (h : step s = .next t) : s.run = .running ∧ exec s.fetch s = .next t := by
  by_cases hr : s.run = .running
  · exact ⟨hr, step_running hr ▸ h⟩
  · rw [step_not_running hr] at h
    cases h

/-- The decoder answers a well-formed instruction whatever the bytes. -/
theorem decode_wf (op b1 b2 : Byte) : (decode op b1 b2).wf = true := by
  obtain ⟨⟨n, hn⟩⟩ := op
  interval_cases n <;> rfl

end Sys2Proof.Machine
end

