-- ==== Sys2Proof/Laws/Decode.lean ====
section
/-! SUPPORT. Words and bytes (10_state.md and 00_scope.md R10), and what the decoder reads at each opcode byte of
30_encoding.md R55 and R56. -/

namespace Sys2Proof

/-! ## Words and bytes -/

theorem toNat_wordOf (h l : Byte) : (wordOf h l).toNat = 256 * h.toNat + l.toNat := by
  have key : (h ++ l : BitVec 16).toNat = h.toNat <<< 8 ||| l.toNat := BitVec.toNat_append h l
  rw [wordOf, key, ← Nat.shiftLeft_add_eq_or_of_lt (by simpa using l.isLt), Nat.shiftLeft_eq]
  omega

theorem toNat_hiByte (w : Word) : (hiByte w).toNat = w.toNat / 256 := by
  simp [hiByte, Nat.shiftRight_eq_div_pow]
  have := w.isLt
  omega

theorem toNat_loByte (w : Word) : (loByte w).toNat = w.toNat % 256 := by simp [loByte]

@[simp] theorem wordOf_hiByte_loByte (w : Word) : wordOf (hiByte w) (loByte w) = w := by
  apply BitVec.eq_of_toNat_eq
  rw [toNat_wordOf, toNat_hiByte, toNat_loByte]
  omega

@[simp] theorem loByte_wordOf (h l : Byte) : loByte (wordOf h l) = l := by
  apply BitVec.eq_of_toNat_eq
  rw [toNat_loByte, toNat_wordOf]
  have := l.isLt
  omega

@[simp] theorem hiByte_wordOf (h l : Byte) : hiByte (wordOf h l) = h := by
  apply BitVec.eq_of_toNat_eq
  rw [toNat_hiByte, toNat_wordOf]
  have := l.isLt
  omega

namespace Machine

theorem toNat_zext16 (b : Byte) : (zext16 b).toNat = b.toNat := by
  simp [zext16]
  omega

theorem toNat_stackAddr (sp : Byte) : (stackAddr sp).toNat = 256 + sp.toNat := by
  have h : (stackAddr sp).toNat = (256 + (zext16 sp).toNat) % 65536 := BitVec.toNat_add ..
  rw [h, toNat_zext16]
  have := sp.isLt
  omega

/-- Distinct offsets name distinct stack bytes (R17). -/
theorem stackAddr_inj {p q : Byte} (h : stackAddr p = stackAddr q) : p = q := by
  apply BitVec.eq_of_toNat_eq
  have := congrArg BitVec.toNat h
  rw [toNat_stackAddr, toNat_stackAddr] at this
  omega

/-- The page-cross flag as a fact of numbers (R58). -/
theorem pageCross_eq (base ea : Word) : pageCross base ea = decide (ea.toNat / 256 ≠ base.toNat / 256) := by
  simp only [pageCross, bne, BEq.beq, BitVec.toNat_eq, toNat_hiByte, ne_eq, decide_not]

end Machine

/-! ## The decoder at each legal opcode byte -/

section
variable (b1 b2 : Byte)

@[simp] theorem decode_brk : decode rowBrk.opcode b1 b2 = .brk := rfl
@[simp] theorem decode_oraIndx : decode rowOraIndx.opcode b1 b2 = .oraIndx b1 := rfl
@[simp] theorem decode_oraZp : decode rowOraZp.opcode b1 b2 = .oraZp b1 := rfl
@[simp] theorem decode_aslZp : decode rowAslZp.opcode b1 b2 = .aslZp b1 := rfl
@[simp] theorem decode_php : decode rowPhp.opcode b1 b2 = .php := rfl
@[simp] theorem decode_oraImm : decode rowOraImm.opcode b1 b2 = .oraImm b1 := rfl
@[simp] theorem decode_aslAcc : decode rowAslAcc.opcode b1 b2 = .aslAcc := rfl
@[simp] theorem decode_oraAbs : decode rowOraAbs.opcode b1 b2 = .oraAbs (wordOf b2 b1) := rfl
@[simp] theorem decode_aslAbs : decode rowAslAbs.opcode b1 b2 = .aslAbs (wordOf b2 b1) := rfl
@[simp] theorem decode_bpl : decode rowBpl.opcode b1 b2 = .bpl b1 := rfl
@[simp] theorem decode_oraIndy : decode rowOraIndy.opcode b1 b2 = .oraIndy b1 := rfl
@[simp] theorem decode_oraZpx : decode rowOraZpx.opcode b1 b2 = .oraZpx b1 := rfl
@[simp] theorem decode_aslZpx : decode rowAslZpx.opcode b1 b2 = .aslZpx b1 := rfl
@[simp] theorem decode_clc : decode rowClc.opcode b1 b2 = .clc := rfl
@[simp] theorem decode_oraAbsy : decode rowOraAbsy.opcode b1 b2 = .oraAbsy (wordOf b2 b1) := rfl
@[simp] theorem decode_oraAbsx : decode rowOraAbsx.opcode b1 b2 = .oraAbsx (wordOf b2 b1) := rfl
@[simp] theorem decode_aslAbsx : decode rowAslAbsx.opcode b1 b2 = .aslAbsx (wordOf b2 b1) := rfl
@[simp] theorem decode_jsr : decode rowJsr.opcode b1 b2 = .jsr (wordOf b2 b1) := rfl
@[simp] theorem decode_andIndx : decode rowAndIndx.opcode b1 b2 = .andIndx b1 := rfl
@[simp] theorem decode_bitZp : decode rowBitZp.opcode b1 b2 = .bitZp b1 := rfl
@[simp] theorem decode_andZp : decode rowAndZp.opcode b1 b2 = .andZp b1 := rfl
@[simp] theorem decode_rolZp : decode rowRolZp.opcode b1 b2 = .rolZp b1 := rfl
@[simp] theorem decode_plp : decode rowPlp.opcode b1 b2 = .plp := rfl
@[simp] theorem decode_andImm : decode rowAndImm.opcode b1 b2 = .andImm b1 := rfl
@[simp] theorem decode_rolAcc : decode rowRolAcc.opcode b1 b2 = .rolAcc := rfl
@[simp] theorem decode_bitAbs : decode rowBitAbs.opcode b1 b2 = .bitAbs (wordOf b2 b1) := rfl
@[simp] theorem decode_andAbs : decode rowAndAbs.opcode b1 b2 = .andAbs (wordOf b2 b1) := rfl
@[simp] theorem decode_rolAbs : decode rowRolAbs.opcode b1 b2 = .rolAbs (wordOf b2 b1) := rfl
@[simp] theorem decode_bmi : decode rowBmi.opcode b1 b2 = .bmi b1 := rfl
@[simp] theorem decode_andIndy : decode rowAndIndy.opcode b1 b2 = .andIndy b1 := rfl
@[simp] theorem decode_andZpx : decode rowAndZpx.opcode b1 b2 = .andZpx b1 := rfl
@[simp] theorem decode_rolZpx : decode rowRolZpx.opcode b1 b2 = .rolZpx b1 := rfl
@[simp] theorem decode_sec : decode rowSec.opcode b1 b2 = .sec := rfl
@[simp] theorem decode_andAbsy : decode rowAndAbsy.opcode b1 b2 = .andAbsy (wordOf b2 b1) := rfl
@[simp] theorem decode_andAbsx : decode rowAndAbsx.opcode b1 b2 = .andAbsx (wordOf b2 b1) := rfl
@[simp] theorem decode_rolAbsx : decode rowRolAbsx.opcode b1 b2 = .rolAbsx (wordOf b2 b1) := rfl
@[simp] theorem decode_rti : decode rowRti.opcode b1 b2 = .rti := rfl
@[simp] theorem decode_eorIndx : decode rowEorIndx.opcode b1 b2 = .eorIndx b1 := rfl
@[simp] theorem decode_eorZp : decode rowEorZp.opcode b1 b2 = .eorZp b1 := rfl
@[simp] theorem decode_lsrZp : decode rowLsrZp.opcode b1 b2 = .lsrZp b1 := rfl
@[simp] theorem decode_pha : decode rowPha.opcode b1 b2 = .pha := rfl
@[simp] theorem decode_eorImm : decode rowEorImm.opcode b1 b2 = .eorImm b1 := rfl
@[simp] theorem decode_lsrAcc : decode rowLsrAcc.opcode b1 b2 = .lsrAcc := rfl
@[simp] theorem decode_jmpAbs : decode rowJmpAbs.opcode b1 b2 = .jmpAbs (wordOf b2 b1) := rfl
@[simp] theorem decode_eorAbs : decode rowEorAbs.opcode b1 b2 = .eorAbs (wordOf b2 b1) := rfl
@[simp] theorem decode_lsrAbs : decode rowLsrAbs.opcode b1 b2 = .lsrAbs (wordOf b2 b1) := rfl
@[simp] theorem decode_bvc : decode rowBvc.opcode b1 b2 = .bvc b1 := rfl
@[simp] theorem decode_eorIndy : decode rowEorIndy.opcode b1 b2 = .eorIndy b1 := rfl
@[simp] theorem decode_eorZpx : decode rowEorZpx.opcode b1 b2 = .eorZpx b1 := rfl
@[simp] theorem decode_lsrZpx : decode rowLsrZpx.opcode b1 b2 = .lsrZpx b1 := rfl
@[simp] theorem decode_cli : decode rowCli.opcode b1 b2 = .cli := rfl
@[simp] theorem decode_eorAbsy : decode rowEorAbsy.opcode b1 b2 = .eorAbsy (wordOf b2 b1) := rfl
@[simp] theorem decode_eorAbsx : decode rowEorAbsx.opcode b1 b2 = .eorAbsx (wordOf b2 b1) := rfl
@[simp] theorem decode_lsrAbsx : decode rowLsrAbsx.opcode b1 b2 = .lsrAbsx (wordOf b2 b1) := rfl
@[simp] theorem decode_rts : decode rowRts.opcode b1 b2 = .rts := rfl
@[simp] theorem decode_adcIndx : decode rowAdcIndx.opcode b1 b2 = .adcIndx b1 := rfl
@[simp] theorem decode_adcZp : decode rowAdcZp.opcode b1 b2 = .adcZp b1 := rfl
@[simp] theorem decode_rorZp : decode rowRorZp.opcode b1 b2 = .rorZp b1 := rfl
@[simp] theorem decode_pla : decode rowPla.opcode b1 b2 = .pla := rfl
@[simp] theorem decode_adcImm : decode rowAdcImm.opcode b1 b2 = .adcImm b1 := rfl
@[simp] theorem decode_rorAcc : decode rowRorAcc.opcode b1 b2 = .rorAcc := rfl
@[simp] theorem decode_jmpInd : decode rowJmpInd.opcode b1 b2 = .jmpInd (wordOf b2 b1) := rfl
@[simp] theorem decode_adcAbs : decode rowAdcAbs.opcode b1 b2 = .adcAbs (wordOf b2 b1) := rfl
@[simp] theorem decode_rorAbs : decode rowRorAbs.opcode b1 b2 = .rorAbs (wordOf b2 b1) := rfl
@[simp] theorem decode_bvs : decode rowBvs.opcode b1 b2 = .bvs b1 := rfl
@[simp] theorem decode_adcIndy : decode rowAdcIndy.opcode b1 b2 = .adcIndy b1 := rfl
@[simp] theorem decode_adcZpx : decode rowAdcZpx.opcode b1 b2 = .adcZpx b1 := rfl
@[simp] theorem decode_rorZpx : decode rowRorZpx.opcode b1 b2 = .rorZpx b1 := rfl
@[simp] theorem decode_sei : decode rowSei.opcode b1 b2 = .sei := rfl
@[simp] theorem decode_adcAbsy : decode rowAdcAbsy.opcode b1 b2 = .adcAbsy (wordOf b2 b1) := rfl
@[simp] theorem decode_adcAbsx : decode rowAdcAbsx.opcode b1 b2 = .adcAbsx (wordOf b2 b1) := rfl
@[simp] theorem decode_rorAbsx : decode rowRorAbsx.opcode b1 b2 = .rorAbsx (wordOf b2 b1) := rfl
@[simp] theorem decode_staIndx : decode rowStaIndx.opcode b1 b2 = .staIndx b1 := rfl
@[simp] theorem decode_styZp : decode rowStyZp.opcode b1 b2 = .styZp b1 := rfl
@[simp] theorem decode_staZp : decode rowStaZp.opcode b1 b2 = .staZp b1 := rfl
@[simp] theorem decode_stxZp : decode rowStxZp.opcode b1 b2 = .stxZp b1 := rfl
@[simp] theorem decode_dey : decode rowDey.opcode b1 b2 = .dey := rfl
@[simp] theorem decode_txa : decode rowTxa.opcode b1 b2 = .txa := rfl
@[simp] theorem decode_styAbs : decode rowStyAbs.opcode b1 b2 = .styAbs (wordOf b2 b1) := rfl
@[simp] theorem decode_staAbs : decode rowStaAbs.opcode b1 b2 = .staAbs (wordOf b2 b1) := rfl
@[simp] theorem decode_stxAbs : decode rowStxAbs.opcode b1 b2 = .stxAbs (wordOf b2 b1) := rfl
@[simp] theorem decode_bcc : decode rowBcc.opcode b1 b2 = .bcc b1 := rfl
@[simp] theorem decode_staIndy : decode rowStaIndy.opcode b1 b2 = .staIndy b1 := rfl
@[simp] theorem decode_styZpx : decode rowStyZpx.opcode b1 b2 = .styZpx b1 := rfl
@[simp] theorem decode_staZpx : decode rowStaZpx.opcode b1 b2 = .staZpx b1 := rfl
@[simp] theorem decode_stxZpy : decode rowStxZpy.opcode b1 b2 = .stxZpy b1 := rfl
@[simp] theorem decode_tya : decode rowTya.opcode b1 b2 = .tya := rfl
@[simp] theorem decode_staAbsy : decode rowStaAbsy.opcode b1 b2 = .staAbsy (wordOf b2 b1) := rfl
@[simp] theorem decode_txs : decode rowTxs.opcode b1 b2 = .txs := rfl
@[simp] theorem decode_staAbsx : decode rowStaAbsx.opcode b1 b2 = .staAbsx (wordOf b2 b1) := rfl
@[simp] theorem decode_ldyImm : decode rowLdyImm.opcode b1 b2 = .ldyImm b1 := rfl
@[simp] theorem decode_ldaIndx : decode rowLdaIndx.opcode b1 b2 = .ldaIndx b1 := rfl
@[simp] theorem decode_ldxImm : decode rowLdxImm.opcode b1 b2 = .ldxImm b1 := rfl
@[simp] theorem decode_ldyZp : decode rowLdyZp.opcode b1 b2 = .ldyZp b1 := rfl
@[simp] theorem decode_ldaZp : decode rowLdaZp.opcode b1 b2 = .ldaZp b1 := rfl
@[simp] theorem decode_ldxZp : decode rowLdxZp.opcode b1 b2 = .ldxZp b1 := rfl
@[simp] theorem decode_tay : decode rowTay.opcode b1 b2 = .tay := rfl
@[simp] theorem decode_ldaImm : decode rowLdaImm.opcode b1 b2 = .ldaImm b1 := rfl
@[simp] theorem decode_tax : decode rowTax.opcode b1 b2 = .tax := rfl
@[simp] theorem decode_ldyAbs : decode rowLdyAbs.opcode b1 b2 = .ldyAbs (wordOf b2 b1) := rfl
@[simp] theorem decode_ldaAbs : decode rowLdaAbs.opcode b1 b2 = .ldaAbs (wordOf b2 b1) := rfl
@[simp] theorem decode_ldxAbs : decode rowLdxAbs.opcode b1 b2 = .ldxAbs (wordOf b2 b1) := rfl
@[simp] theorem decode_bcs : decode rowBcs.opcode b1 b2 = .bcs b1 := rfl
@[simp] theorem decode_ldaIndy : decode rowLdaIndy.opcode b1 b2 = .ldaIndy b1 := rfl
@[simp] theorem decode_ldyZpx : decode rowLdyZpx.opcode b1 b2 = .ldyZpx b1 := rfl
@[simp] theorem decode_ldaZpx : decode rowLdaZpx.opcode b1 b2 = .ldaZpx b1 := rfl
@[simp] theorem decode_ldxZpy : decode rowLdxZpy.opcode b1 b2 = .ldxZpy b1 := rfl
@[simp] theorem decode_clv : decode rowClv.opcode b1 b2 = .clv := rfl
@[simp] theorem decode_ldaAbsy : decode rowLdaAbsy.opcode b1 b2 = .ldaAbsy (wordOf b2 b1) := rfl
@[simp] theorem decode_tsx : decode rowTsx.opcode b1 b2 = .tsx := rfl
@[simp] theorem decode_ldyAbsx : decode rowLdyAbsx.opcode b1 b2 = .ldyAbsx (wordOf b2 b1) := rfl
@[simp] theorem decode_ldaAbsx : decode rowLdaAbsx.opcode b1 b2 = .ldaAbsx (wordOf b2 b1) := rfl
@[simp] theorem decode_ldxAbsy : decode rowLdxAbsy.opcode b1 b2 = .ldxAbsy (wordOf b2 b1) := rfl
@[simp] theorem decode_cpyImm : decode rowCpyImm.opcode b1 b2 = .cpyImm b1 := rfl
@[simp] theorem decode_cmpIndx : decode rowCmpIndx.opcode b1 b2 = .cmpIndx b1 := rfl
@[simp] theorem decode_cpyZp : decode rowCpyZp.opcode b1 b2 = .cpyZp b1 := rfl
@[simp] theorem decode_cmpZp : decode rowCmpZp.opcode b1 b2 = .cmpZp b1 := rfl
@[simp] theorem decode_decZp : decode rowDecZp.opcode b1 b2 = .decZp b1 := rfl
@[simp] theorem decode_iny : decode rowIny.opcode b1 b2 = .iny := rfl
@[simp] theorem decode_cmpImm : decode rowCmpImm.opcode b1 b2 = .cmpImm b1 := rfl
@[simp] theorem decode_dex : decode rowDex.opcode b1 b2 = .dex := rfl
@[simp] theorem decode_cpyAbs : decode rowCpyAbs.opcode b1 b2 = .cpyAbs (wordOf b2 b1) := rfl
@[simp] theorem decode_cmpAbs : decode rowCmpAbs.opcode b1 b2 = .cmpAbs (wordOf b2 b1) := rfl
@[simp] theorem decode_decAbs : decode rowDecAbs.opcode b1 b2 = .decAbs (wordOf b2 b1) := rfl
@[simp] theorem decode_bne : decode rowBne.opcode b1 b2 = .bne b1 := rfl
@[simp] theorem decode_cmpIndy : decode rowCmpIndy.opcode b1 b2 = .cmpIndy b1 := rfl
@[simp] theorem decode_cmpZpx : decode rowCmpZpx.opcode b1 b2 = .cmpZpx b1 := rfl
@[simp] theorem decode_decZpx : decode rowDecZpx.opcode b1 b2 = .decZpx b1 := rfl
@[simp] theorem decode_cld : decode rowCld.opcode b1 b2 = .cld := rfl
@[simp] theorem decode_cmpAbsy : decode rowCmpAbsy.opcode b1 b2 = .cmpAbsy (wordOf b2 b1) := rfl
@[simp] theorem decode_cmpAbsx : decode rowCmpAbsx.opcode b1 b2 = .cmpAbsx (wordOf b2 b1) := rfl
@[simp] theorem decode_decAbsx : decode rowDecAbsx.opcode b1 b2 = .decAbsx (wordOf b2 b1) := rfl
@[simp] theorem decode_cpxImm : decode rowCpxImm.opcode b1 b2 = .cpxImm b1 := rfl
@[simp] theorem decode_sbcIndx : decode rowSbcIndx.opcode b1 b2 = .sbcIndx b1 := rfl
@[simp] theorem decode_cpxZp : decode rowCpxZp.opcode b1 b2 = .cpxZp b1 := rfl
@[simp] theorem decode_sbcZp : decode rowSbcZp.opcode b1 b2 = .sbcZp b1 := rfl
@[simp] theorem decode_incZp : decode rowIncZp.opcode b1 b2 = .incZp b1 := rfl
@[simp] theorem decode_inx : decode rowInx.opcode b1 b2 = .inx := rfl
@[simp] theorem decode_sbcImm : decode rowSbcImm.opcode b1 b2 = .sbcImm b1 := rfl
@[simp] theorem decode_nop : decode rowNop.opcode b1 b2 = .nop := rfl
@[simp] theorem decode_cpxAbs : decode rowCpxAbs.opcode b1 b2 = .cpxAbs (wordOf b2 b1) := rfl
@[simp] theorem decode_sbcAbs : decode rowSbcAbs.opcode b1 b2 = .sbcAbs (wordOf b2 b1) := rfl
@[simp] theorem decode_incAbs : decode rowIncAbs.opcode b1 b2 = .incAbs (wordOf b2 b1) := rfl
@[simp] theorem decode_beq : decode rowBeq.opcode b1 b2 = .beq b1 := rfl
@[simp] theorem decode_sbcIndy : decode rowSbcIndy.opcode b1 b2 = .sbcIndy b1 := rfl
@[simp] theorem decode_sbcZpx : decode rowSbcZpx.opcode b1 b2 = .sbcZpx b1 := rfl
@[simp] theorem decode_incZpx : decode rowIncZpx.opcode b1 b2 = .incZpx b1 := rfl
@[simp] theorem decode_sed : decode rowSed.opcode b1 b2 = .sed := rfl
@[simp] theorem decode_sbcAbsy : decode rowSbcAbsy.opcode b1 b2 = .sbcAbsy (wordOf b2 b1) := rfl
@[simp] theorem decode_sbcAbsx : decode rowSbcAbsx.opcode b1 b2 = .sbcAbsx (wordOf b2 b1) := rfl
@[simp] theorem decode_incAbsx : decode rowIncAbsx.opcode b1 b2 = .incAbsx (wordOf b2 b1) := rfl

end

/-- At each of the 105 bytes of R56 the decoder answers `illegal` with that byte. -/
theorem decode_of_mem_illegal {op : Byte} (h : op ∈ illegalOpcodes) (b1 b2 : Byte) :
    decode op b1 b2 = .illegal op := by
  unfold decode
  split <;> first | rfl | exact absurd h (by decide)

/-- At any byte the decoder answers the instruction of the byte's row, or `illegal`. -/
theorem lookup_eq_row (op b1 b2 : Byte) : lookup op = (decode op b1 b2).row := by
  have h : ∀ op : Byte, lookup op = (decode op 0 0).row := by decide
  have hrow : (decode op b1 b2).row = (decode op 0 0).row := by
    unfold decode
    split <;> rfl
  rw [hrow, h]

end Sys2Proof
end

