-- ==== Sys2Proof/Laws/PerInstr.lean ====
section
/-! SUPPORT. The family TableAgrees, one lemma per constructor of `Instr`: the opcode byte an instruction is encoded
with looks up the instruction's own row, its encoding has the row's length, and its operand the row's mode. -/

/-- The table entry at the encoding's first byte is the instruction's row; length and mode are the row's. -/
def Sys2Proof.Laws.TableAgrees.Statement (i : Sys2Proof.Instr) : Prop :=
  i.wf = true → ∃ op rest, Sys2Proof.encode i = op :: rest ∧ Sys2Proof.lookup op = i.row ∧
    rest.length + 1 = i.length ∧ ∀ r, i.row = some r → i.operand.mode = r.mode

namespace Sys2Proof.Laws.TableAgrees

open Sys2Proof

theorem ldaIndx (z : Byte) : Statement (.ldaIndx z) :=
  fun _ => ⟨_, _, rfl, rfl, rfl, fun _ h => by cases h; rfl⟩
theorem ldaZp (z : Byte) : Statement (.ldaZp z) :=
  fun _ => ⟨_, _, rfl, rfl, rfl, fun _ h => by cases h; rfl⟩
theorem ldaImm (v : Byte) : Statement (.ldaImm v) :=
  fun _ => ⟨_, _, rfl, rfl, rfl, fun _ h => by cases h; rfl⟩
theorem ldaAbs (a : Word) : Statement (.ldaAbs a) :=
  fun _ => ⟨_, _, rfl, rfl, rfl, fun _ h => by cases h; rfl⟩
theorem ldaIndy (z : Byte) : Statement (.ldaIndy z) :=
  fun _ => ⟨_, _, rfl, rfl, rfl, fun _ h => by cases h; rfl⟩
theorem ldaZpx (z : Byte) : Statement (.ldaZpx z) :=
  fun _ => ⟨_, _, rfl, rfl, rfl, fun _ h => by cases h; rfl⟩
theorem ldaAbsy (a : Word) : Statement (.ldaAbsy a) :=
  fun _ => ⟨_, _, rfl, rfl, rfl, fun _ h => by cases h; rfl⟩
theorem ldaAbsx (a : Word) : Statement (.ldaAbsx a) :=
  fun _ => ⟨_, _, rfl, rfl, rfl, fun _ h => by cases h; rfl⟩
theorem ldxImm (v : Byte) : Statement (.ldxImm v) :=
  fun _ => ⟨_, _, rfl, rfl, rfl, fun _ h => by cases h; rfl⟩
theorem ldxZp (z : Byte) : Statement (.ldxZp z) :=
  fun _ => ⟨_, _, rfl, rfl, rfl, fun _ h => by cases h; rfl⟩
theorem ldxAbs (a : Word) : Statement (.ldxAbs a) :=
  fun _ => ⟨_, _, rfl, rfl, rfl, fun _ h => by cases h; rfl⟩
theorem ldxZpy (z : Byte) : Statement (.ldxZpy z) :=
  fun _ => ⟨_, _, rfl, rfl, rfl, fun _ h => by cases h; rfl⟩
theorem ldxAbsy (a : Word) : Statement (.ldxAbsy a) :=
  fun _ => ⟨_, _, rfl, rfl, rfl, fun _ h => by cases h; rfl⟩
theorem ldyImm (v : Byte) : Statement (.ldyImm v) :=
  fun _ => ⟨_, _, rfl, rfl, rfl, fun _ h => by cases h; rfl⟩
theorem ldyZp (z : Byte) : Statement (.ldyZp z) :=
  fun _ => ⟨_, _, rfl, rfl, rfl, fun _ h => by cases h; rfl⟩
theorem ldyAbs (a : Word) : Statement (.ldyAbs a) :=
  fun _ => ⟨_, _, rfl, rfl, rfl, fun _ h => by cases h; rfl⟩
theorem ldyZpx (z : Byte) : Statement (.ldyZpx z) :=
  fun _ => ⟨_, _, rfl, rfl, rfl, fun _ h => by cases h; rfl⟩
theorem ldyAbsx (a : Word) : Statement (.ldyAbsx a) :=
  fun _ => ⟨_, _, rfl, rfl, rfl, fun _ h => by cases h; rfl⟩
theorem staIndx (z : Byte) : Statement (.staIndx z) :=
  fun _ => ⟨_, _, rfl, rfl, rfl, fun _ h => by cases h; rfl⟩
theorem staZp (z : Byte) : Statement (.staZp z) :=
  fun _ => ⟨_, _, rfl, rfl, rfl, fun _ h => by cases h; rfl⟩
theorem staAbs (a : Word) : Statement (.staAbs a) :=
  fun _ => ⟨_, _, rfl, rfl, rfl, fun _ h => by cases h; rfl⟩
theorem staIndy (z : Byte) : Statement (.staIndy z) :=
  fun _ => ⟨_, _, rfl, rfl, rfl, fun _ h => by cases h; rfl⟩
theorem staZpx (z : Byte) : Statement (.staZpx z) :=
  fun _ => ⟨_, _, rfl, rfl, rfl, fun _ h => by cases h; rfl⟩
theorem staAbsy (a : Word) : Statement (.staAbsy a) :=
  fun _ => ⟨_, _, rfl, rfl, rfl, fun _ h => by cases h; rfl⟩
theorem staAbsx (a : Word) : Statement (.staAbsx a) :=
  fun _ => ⟨_, _, rfl, rfl, rfl, fun _ h => by cases h; rfl⟩
theorem stxZp (z : Byte) : Statement (.stxZp z) :=
  fun _ => ⟨_, _, rfl, rfl, rfl, fun _ h => by cases h; rfl⟩
theorem stxAbs (a : Word) : Statement (.stxAbs a) :=
  fun _ => ⟨_, _, rfl, rfl, rfl, fun _ h => by cases h; rfl⟩
theorem stxZpy (z : Byte) : Statement (.stxZpy z) :=
  fun _ => ⟨_, _, rfl, rfl, rfl, fun _ h => by cases h; rfl⟩
theorem styZp (z : Byte) : Statement (.styZp z) :=
  fun _ => ⟨_, _, rfl, rfl, rfl, fun _ h => by cases h; rfl⟩
theorem styAbs (a : Word) : Statement (.styAbs a) :=
  fun _ => ⟨_, _, rfl, rfl, rfl, fun _ h => by cases h; rfl⟩
theorem styZpx (z : Byte) : Statement (.styZpx z) :=
  fun _ => ⟨_, _, rfl, rfl, rfl, fun _ h => by cases h; rfl⟩
theorem adcIndx (z : Byte) : Statement (.adcIndx z) :=
  fun _ => ⟨_, _, rfl, rfl, rfl, fun _ h => by cases h; rfl⟩
theorem adcZp (z : Byte) : Statement (.adcZp z) :=
  fun _ => ⟨_, _, rfl, rfl, rfl, fun _ h => by cases h; rfl⟩
theorem adcImm (v : Byte) : Statement (.adcImm v) :=
  fun _ => ⟨_, _, rfl, rfl, rfl, fun _ h => by cases h; rfl⟩
theorem adcAbs (a : Word) : Statement (.adcAbs a) :=
  fun _ => ⟨_, _, rfl, rfl, rfl, fun _ h => by cases h; rfl⟩
theorem adcIndy (z : Byte) : Statement (.adcIndy z) :=
  fun _ => ⟨_, _, rfl, rfl, rfl, fun _ h => by cases h; rfl⟩
theorem adcZpx (z : Byte) : Statement (.adcZpx z) :=
  fun _ => ⟨_, _, rfl, rfl, rfl, fun _ h => by cases h; rfl⟩
theorem adcAbsy (a : Word) : Statement (.adcAbsy a) :=
  fun _ => ⟨_, _, rfl, rfl, rfl, fun _ h => by cases h; rfl⟩
theorem adcAbsx (a : Word) : Statement (.adcAbsx a) :=
  fun _ => ⟨_, _, rfl, rfl, rfl, fun _ h => by cases h; rfl⟩
theorem sbcIndx (z : Byte) : Statement (.sbcIndx z) :=
  fun _ => ⟨_, _, rfl, rfl, rfl, fun _ h => by cases h; rfl⟩
theorem sbcZp (z : Byte) : Statement (.sbcZp z) :=
  fun _ => ⟨_, _, rfl, rfl, rfl, fun _ h => by cases h; rfl⟩
theorem sbcImm (v : Byte) : Statement (.sbcImm v) :=
  fun _ => ⟨_, _, rfl, rfl, rfl, fun _ h => by cases h; rfl⟩
theorem sbcAbs (a : Word) : Statement (.sbcAbs a) :=
  fun _ => ⟨_, _, rfl, rfl, rfl, fun _ h => by cases h; rfl⟩
theorem sbcIndy (z : Byte) : Statement (.sbcIndy z) :=
  fun _ => ⟨_, _, rfl, rfl, rfl, fun _ h => by cases h; rfl⟩
theorem sbcZpx (z : Byte) : Statement (.sbcZpx z) :=
  fun _ => ⟨_, _, rfl, rfl, rfl, fun _ h => by cases h; rfl⟩
theorem sbcAbsy (a : Word) : Statement (.sbcAbsy a) :=
  fun _ => ⟨_, _, rfl, rfl, rfl, fun _ h => by cases h; rfl⟩
theorem sbcAbsx (a : Word) : Statement (.sbcAbsx a) :=
  fun _ => ⟨_, _, rfl, rfl, rfl, fun _ h => by cases h; rfl⟩
theorem cmpIndx (z : Byte) : Statement (.cmpIndx z) :=
  fun _ => ⟨_, _, rfl, rfl, rfl, fun _ h => by cases h; rfl⟩
theorem cmpZp (z : Byte) : Statement (.cmpZp z) :=
  fun _ => ⟨_, _, rfl, rfl, rfl, fun _ h => by cases h; rfl⟩
theorem cmpImm (v : Byte) : Statement (.cmpImm v) :=
  fun _ => ⟨_, _, rfl, rfl, rfl, fun _ h => by cases h; rfl⟩
theorem cmpAbs (a : Word) : Statement (.cmpAbs a) :=
  fun _ => ⟨_, _, rfl, rfl, rfl, fun _ h => by cases h; rfl⟩
theorem cmpIndy (z : Byte) : Statement (.cmpIndy z) :=
  fun _ => ⟨_, _, rfl, rfl, rfl, fun _ h => by cases h; rfl⟩
theorem cmpZpx (z : Byte) : Statement (.cmpZpx z) :=
  fun _ => ⟨_, _, rfl, rfl, rfl, fun _ h => by cases h; rfl⟩
theorem cmpAbsy (a : Word) : Statement (.cmpAbsy a) :=
  fun _ => ⟨_, _, rfl, rfl, rfl, fun _ h => by cases h; rfl⟩
theorem cmpAbsx (a : Word) : Statement (.cmpAbsx a) :=
  fun _ => ⟨_, _, rfl, rfl, rfl, fun _ h => by cases h; rfl⟩
theorem cpxImm (v : Byte) : Statement (.cpxImm v) :=
  fun _ => ⟨_, _, rfl, rfl, rfl, fun _ h => by cases h; rfl⟩
theorem cpxZp (z : Byte) : Statement (.cpxZp z) :=
  fun _ => ⟨_, _, rfl, rfl, rfl, fun _ h => by cases h; rfl⟩
theorem cpxAbs (a : Word) : Statement (.cpxAbs a) :=
  fun _ => ⟨_, _, rfl, rfl, rfl, fun _ h => by cases h; rfl⟩
theorem cpyImm (v : Byte) : Statement (.cpyImm v) :=
  fun _ => ⟨_, _, rfl, rfl, rfl, fun _ h => by cases h; rfl⟩
theorem cpyZp (z : Byte) : Statement (.cpyZp z) :=
  fun _ => ⟨_, _, rfl, rfl, rfl, fun _ h => by cases h; rfl⟩
theorem cpyAbs (a : Word) : Statement (.cpyAbs a) :=
  fun _ => ⟨_, _, rfl, rfl, rfl, fun _ h => by cases h; rfl⟩
theorem andIndx (z : Byte) : Statement (.andIndx z) :=
  fun _ => ⟨_, _, rfl, rfl, rfl, fun _ h => by cases h; rfl⟩
theorem andZp (z : Byte) : Statement (.andZp z) :=
  fun _ => ⟨_, _, rfl, rfl, rfl, fun _ h => by cases h; rfl⟩
theorem andImm (v : Byte) : Statement (.andImm v) :=
  fun _ => ⟨_, _, rfl, rfl, rfl, fun _ h => by cases h; rfl⟩
theorem andAbs (a : Word) : Statement (.andAbs a) :=
  fun _ => ⟨_, _, rfl, rfl, rfl, fun _ h => by cases h; rfl⟩
theorem andIndy (z : Byte) : Statement (.andIndy z) :=
  fun _ => ⟨_, _, rfl, rfl, rfl, fun _ h => by cases h; rfl⟩
theorem andZpx (z : Byte) : Statement (.andZpx z) :=
  fun _ => ⟨_, _, rfl, rfl, rfl, fun _ h => by cases h; rfl⟩
theorem andAbsy (a : Word) : Statement (.andAbsy a) :=
  fun _ => ⟨_, _, rfl, rfl, rfl, fun _ h => by cases h; rfl⟩
theorem andAbsx (a : Word) : Statement (.andAbsx a) :=
  fun _ => ⟨_, _, rfl, rfl, rfl, fun _ h => by cases h; rfl⟩
theorem oraIndx (z : Byte) : Statement (.oraIndx z) :=
  fun _ => ⟨_, _, rfl, rfl, rfl, fun _ h => by cases h; rfl⟩
theorem oraZp (z : Byte) : Statement (.oraZp z) :=
  fun _ => ⟨_, _, rfl, rfl, rfl, fun _ h => by cases h; rfl⟩
theorem oraImm (v : Byte) : Statement (.oraImm v) :=
  fun _ => ⟨_, _, rfl, rfl, rfl, fun _ h => by cases h; rfl⟩
theorem oraAbs (a : Word) : Statement (.oraAbs a) :=
  fun _ => ⟨_, _, rfl, rfl, rfl, fun _ h => by cases h; rfl⟩
theorem oraIndy (z : Byte) : Statement (.oraIndy z) :=
  fun _ => ⟨_, _, rfl, rfl, rfl, fun _ h => by cases h; rfl⟩
theorem oraZpx (z : Byte) : Statement (.oraZpx z) :=
  fun _ => ⟨_, _, rfl, rfl, rfl, fun _ h => by cases h; rfl⟩
theorem oraAbsy (a : Word) : Statement (.oraAbsy a) :=
  fun _ => ⟨_, _, rfl, rfl, rfl, fun _ h => by cases h; rfl⟩
theorem oraAbsx (a : Word) : Statement (.oraAbsx a) :=
  fun _ => ⟨_, _, rfl, rfl, rfl, fun _ h => by cases h; rfl⟩
theorem eorIndx (z : Byte) : Statement (.eorIndx z) :=
  fun _ => ⟨_, _, rfl, rfl, rfl, fun _ h => by cases h; rfl⟩
theorem eorZp (z : Byte) : Statement (.eorZp z) :=
  fun _ => ⟨_, _, rfl, rfl, rfl, fun _ h => by cases h; rfl⟩
theorem eorImm (v : Byte) : Statement (.eorImm v) :=
  fun _ => ⟨_, _, rfl, rfl, rfl, fun _ h => by cases h; rfl⟩
theorem eorAbs (a : Word) : Statement (.eorAbs a) :=
  fun _ => ⟨_, _, rfl, rfl, rfl, fun _ h => by cases h; rfl⟩
theorem eorIndy (z : Byte) : Statement (.eorIndy z) :=
  fun _ => ⟨_, _, rfl, rfl, rfl, fun _ h => by cases h; rfl⟩
theorem eorZpx (z : Byte) : Statement (.eorZpx z) :=
  fun _ => ⟨_, _, rfl, rfl, rfl, fun _ h => by cases h; rfl⟩
theorem eorAbsy (a : Word) : Statement (.eorAbsy a) :=
  fun _ => ⟨_, _, rfl, rfl, rfl, fun _ h => by cases h; rfl⟩
theorem eorAbsx (a : Word) : Statement (.eorAbsx a) :=
  fun _ => ⟨_, _, rfl, rfl, rfl, fun _ h => by cases h; rfl⟩
theorem bitZp (z : Byte) : Statement (.bitZp z) :=
  fun _ => ⟨_, _, rfl, rfl, rfl, fun _ h => by cases h; rfl⟩
theorem bitAbs (a : Word) : Statement (.bitAbs a) :=
  fun _ => ⟨_, _, rfl, rfl, rfl, fun _ h => by cases h; rfl⟩
theorem aslZp (z : Byte) : Statement (.aslZp z) :=
  fun _ => ⟨_, _, rfl, rfl, rfl, fun _ h => by cases h; rfl⟩
theorem aslAcc : Statement (.aslAcc) :=
  fun _ => ⟨_, _, rfl, rfl, rfl, fun _ h => by cases h; rfl⟩
theorem aslAbs (a : Word) : Statement (.aslAbs a) :=
  fun _ => ⟨_, _, rfl, rfl, rfl, fun _ h => by cases h; rfl⟩
theorem aslZpx (z : Byte) : Statement (.aslZpx z) :=
  fun _ => ⟨_, _, rfl, rfl, rfl, fun _ h => by cases h; rfl⟩
theorem aslAbsx (a : Word) : Statement (.aslAbsx a) :=
  fun _ => ⟨_, _, rfl, rfl, rfl, fun _ h => by cases h; rfl⟩
theorem lsrZp (z : Byte) : Statement (.lsrZp z) :=
  fun _ => ⟨_, _, rfl, rfl, rfl, fun _ h => by cases h; rfl⟩
theorem lsrAcc : Statement (.lsrAcc) :=
  fun _ => ⟨_, _, rfl, rfl, rfl, fun _ h => by cases h; rfl⟩
theorem lsrAbs (a : Word) : Statement (.lsrAbs a) :=
  fun _ => ⟨_, _, rfl, rfl, rfl, fun _ h => by cases h; rfl⟩
theorem lsrZpx (z : Byte) : Statement (.lsrZpx z) :=
  fun _ => ⟨_, _, rfl, rfl, rfl, fun _ h => by cases h; rfl⟩
theorem lsrAbsx (a : Word) : Statement (.lsrAbsx a) :=
  fun _ => ⟨_, _, rfl, rfl, rfl, fun _ h => by cases h; rfl⟩
theorem rolZp (z : Byte) : Statement (.rolZp z) :=
  fun _ => ⟨_, _, rfl, rfl, rfl, fun _ h => by cases h; rfl⟩
theorem rolAcc : Statement (.rolAcc) :=
  fun _ => ⟨_, _, rfl, rfl, rfl, fun _ h => by cases h; rfl⟩
theorem rolAbs (a : Word) : Statement (.rolAbs a) :=
  fun _ => ⟨_, _, rfl, rfl, rfl, fun _ h => by cases h; rfl⟩
theorem rolZpx (z : Byte) : Statement (.rolZpx z) :=
  fun _ => ⟨_, _, rfl, rfl, rfl, fun _ h => by cases h; rfl⟩
theorem rolAbsx (a : Word) : Statement (.rolAbsx a) :=
  fun _ => ⟨_, _, rfl, rfl, rfl, fun _ h => by cases h; rfl⟩
theorem rorZp (z : Byte) : Statement (.rorZp z) :=
  fun _ => ⟨_, _, rfl, rfl, rfl, fun _ h => by cases h; rfl⟩
theorem rorAcc : Statement (.rorAcc) :=
  fun _ => ⟨_, _, rfl, rfl, rfl, fun _ h => by cases h; rfl⟩
theorem rorAbs (a : Word) : Statement (.rorAbs a) :=
  fun _ => ⟨_, _, rfl, rfl, rfl, fun _ h => by cases h; rfl⟩
theorem rorZpx (z : Byte) : Statement (.rorZpx z) :=
  fun _ => ⟨_, _, rfl, rfl, rfl, fun _ h => by cases h; rfl⟩
theorem rorAbsx (a : Word) : Statement (.rorAbsx a) :=
  fun _ => ⟨_, _, rfl, rfl, rfl, fun _ h => by cases h; rfl⟩
theorem incZp (z : Byte) : Statement (.incZp z) :=
  fun _ => ⟨_, _, rfl, rfl, rfl, fun _ h => by cases h; rfl⟩
theorem incAbs (a : Word) : Statement (.incAbs a) :=
  fun _ => ⟨_, _, rfl, rfl, rfl, fun _ h => by cases h; rfl⟩
theorem incZpx (z : Byte) : Statement (.incZpx z) :=
  fun _ => ⟨_, _, rfl, rfl, rfl, fun _ h => by cases h; rfl⟩
theorem incAbsx (a : Word) : Statement (.incAbsx a) :=
  fun _ => ⟨_, _, rfl, rfl, rfl, fun _ h => by cases h; rfl⟩
theorem decZp (z : Byte) : Statement (.decZp z) :=
  fun _ => ⟨_, _, rfl, rfl, rfl, fun _ h => by cases h; rfl⟩
theorem decAbs (a : Word) : Statement (.decAbs a) :=
  fun _ => ⟨_, _, rfl, rfl, rfl, fun _ h => by cases h; rfl⟩
theorem decZpx (z : Byte) : Statement (.decZpx z) :=
  fun _ => ⟨_, _, rfl, rfl, rfl, fun _ h => by cases h; rfl⟩
theorem decAbsx (a : Word) : Statement (.decAbsx a) :=
  fun _ => ⟨_, _, rfl, rfl, rfl, fun _ h => by cases h; rfl⟩
theorem inx : Statement (.inx) :=
  fun _ => ⟨_, _, rfl, rfl, rfl, fun _ h => by cases h; rfl⟩
theorem iny : Statement (.iny) :=
  fun _ => ⟨_, _, rfl, rfl, rfl, fun _ h => by cases h; rfl⟩
theorem dex : Statement (.dex) :=
  fun _ => ⟨_, _, rfl, rfl, rfl, fun _ h => by cases h; rfl⟩
theorem dey : Statement (.dey) :=
  fun _ => ⟨_, _, rfl, rfl, rfl, fun _ h => by cases h; rfl⟩
theorem bcc (d : Byte) : Statement (.bcc d) :=
  fun _ => ⟨_, _, rfl, rfl, rfl, fun _ h => by cases h; rfl⟩
theorem bcs (d : Byte) : Statement (.bcs d) :=
  fun _ => ⟨_, _, rfl, rfl, rfl, fun _ h => by cases h; rfl⟩
theorem beq (d : Byte) : Statement (.beq d) :=
  fun _ => ⟨_, _, rfl, rfl, rfl, fun _ h => by cases h; rfl⟩
theorem bne (d : Byte) : Statement (.bne d) :=
  fun _ => ⟨_, _, rfl, rfl, rfl, fun _ h => by cases h; rfl⟩
theorem bmi (d : Byte) : Statement (.bmi d) :=
  fun _ => ⟨_, _, rfl, rfl, rfl, fun _ h => by cases h; rfl⟩
theorem bpl (d : Byte) : Statement (.bpl d) :=
  fun _ => ⟨_, _, rfl, rfl, rfl, fun _ h => by cases h; rfl⟩
theorem bvc (d : Byte) : Statement (.bvc d) :=
  fun _ => ⟨_, _, rfl, rfl, rfl, fun _ h => by cases h; rfl⟩
theorem bvs (d : Byte) : Statement (.bvs d) :=
  fun _ => ⟨_, _, rfl, rfl, rfl, fun _ h => by cases h; rfl⟩
theorem jmpAbs (a : Word) : Statement (.jmpAbs a) :=
  fun _ => ⟨_, _, rfl, rfl, rfl, fun _ h => by cases h; rfl⟩
theorem jmpInd (a : Word) : Statement (.jmpInd a) :=
  fun _ => ⟨_, _, rfl, rfl, rfl, fun _ h => by cases h; rfl⟩
theorem jsr (a : Word) : Statement (.jsr a) :=
  fun _ => ⟨_, _, rfl, rfl, rfl, fun _ h => by cases h; rfl⟩
theorem rts : Statement (.rts) :=
  fun _ => ⟨_, _, rfl, rfl, rfl, fun _ h => by cases h; rfl⟩
theorem brk : Statement (.brk) :=
  fun _ => ⟨_, _, rfl, rfl, rfl, fun _ h => by cases h; rfl⟩
theorem rti : Statement (.rti) :=
  fun _ => ⟨_, _, rfl, rfl, rfl, fun _ h => by cases h; rfl⟩
theorem nop : Statement (.nop) :=
  fun _ => ⟨_, _, rfl, rfl, rfl, fun _ h => by cases h; rfl⟩
theorem pha : Statement (.pha) :=
  fun _ => ⟨_, _, rfl, rfl, rfl, fun _ h => by cases h; rfl⟩
theorem php : Statement (.php) :=
  fun _ => ⟨_, _, rfl, rfl, rfl, fun _ h => by cases h; rfl⟩
theorem pla : Statement (.pla) :=
  fun _ => ⟨_, _, rfl, rfl, rfl, fun _ h => by cases h; rfl⟩
theorem plp : Statement (.plp) :=
  fun _ => ⟨_, _, rfl, rfl, rfl, fun _ h => by cases h; rfl⟩
theorem clc : Statement (.clc) :=
  fun _ => ⟨_, _, rfl, rfl, rfl, fun _ h => by cases h; rfl⟩
theorem sec : Statement (.sec) :=
  fun _ => ⟨_, _, rfl, rfl, rfl, fun _ h => by cases h; rfl⟩
theorem cli : Statement (.cli) :=
  fun _ => ⟨_, _, rfl, rfl, rfl, fun _ h => by cases h; rfl⟩
theorem sei : Statement (.sei) :=
  fun _ => ⟨_, _, rfl, rfl, rfl, fun _ h => by cases h; rfl⟩
theorem clv : Statement (.clv) :=
  fun _ => ⟨_, _, rfl, rfl, rfl, fun _ h => by cases h; rfl⟩
theorem cld : Statement (.cld) :=
  fun _ => ⟨_, _, rfl, rfl, rfl, fun _ h => by cases h; rfl⟩
theorem sed : Statement (.sed) :=
  fun _ => ⟨_, _, rfl, rfl, rfl, fun _ h => by cases h; rfl⟩
theorem tax : Statement (.tax) :=
  fun _ => ⟨_, _, rfl, rfl, rfl, fun _ h => by cases h; rfl⟩
theorem tay : Statement (.tay) :=
  fun _ => ⟨_, _, rfl, rfl, rfl, fun _ h => by cases h; rfl⟩
theorem txa : Statement (.txa) :=
  fun _ => ⟨_, _, rfl, rfl, rfl, fun _ h => by cases h; rfl⟩
theorem tya : Statement (.tya) :=
  fun _ => ⟨_, _, rfl, rfl, rfl, fun _ h => by cases h; rfl⟩
theorem tsx : Statement (.tsx) :=
  fun _ => ⟨_, _, rfl, rfl, rfl, fun _ h => by cases h; rfl⟩
theorem txs : Statement (.txs) :=
  fun _ => ⟨_, _, rfl, rfl, rfl, fun _ h => by cases h; rfl⟩

/-- No illegal byte of R56 has an entry in the table of R55. -/
theorem lookup_of_illegal : ∀ op ∈ illegalOpcodes, lookup op = none := by decide

theorem illegal (op : Byte) : Statement (.illegal op) :=
  fun h => ⟨op, [], rfl, lookup_of_illegal op (List.contains_iff_mem.mp h), rfl, fun _ h => nomatch h⟩

end Sys2Proof.Laws.TableAgrees
end

