-- ==== Sys2Proof/Laws/Rules.lean ====
section
/-! SUPPORT. One lemma per instruction rule: the effect a rule has, when it has one. A proof about an instruction cites
these and does not unfold the rule. -/

namespace Sys2Proof.Machine

variable {res : Resolved} {pcross : Bool} {s : State} {e : Effect}

/-! ## The shared parts of rules -/

theorem shiftBack_some {rc : Byte × Bool} :
    shiftBack res rc s = some e ↔
      ∃ t, writeBack res rc.1 s = some t ∧ e = .plain { t with p := setZN (setFlag t.p .c rc.2) rc.1 } := by
  simp [shiftBack, eq_comm]

theorem stepBack_some {r : Byte} :
    stepBack res r s = some e ↔ ∃ t, writeBack res r s = some t ∧ e = .plain { t with p := setZN t.p r } := by
  simp [stepBack, eq_comm]

theorem branchIf_some {cond : Bool} :
    branchIf cond res pcross s = some e ↔
      ∃ target, eaOf res = some target ∧
        e = if cond then ⟨s, some target, 1 + pcross.toNat⟩ else .plain s := by
  simp [branchIf, eq_comm]

/-- What writing back can do (R84): one byte of memory at the address, or A. -/
theorem writeBack_some {v : Byte} {t : State} :
    writeBack res v s = some t ↔
      (∃ ea, res = .addr ea ∧ t = s.write8 ea v) ∨ (res = .accumulator ∧ t = { s with a := v }) := by
  cases res <;> simp [writeBack, eq_comm]

/-! ## The rules, kind by kind -/

theorem ruleLda_some :
    ruleLda res pcross s = some e ↔
      ∃ m, operandOf res s = some m ∧ e = .plain { s with a := m, p := setZN s.p m } := by
  simp [ruleLda, eq_comm]

theorem ruleLdx_some :
    ruleLdx res pcross s = some e ↔
      ∃ m, operandOf res s = some m ∧ e = .plain { s with x := m, p := setZN s.p m } := by
  simp [ruleLdx, eq_comm]

theorem ruleLdy_some :
    ruleLdy res pcross s = some e ↔
      ∃ m, operandOf res s = some m ∧ e = .plain { s with y := m, p := setZN s.p m } := by
  simp [ruleLdy, eq_comm]

theorem ruleSta_some :
    ruleSta res pcross s = some e ↔
      ∃ ea, eaOf res = some ea ∧ e = .plain (s.write8 ea s.a) := by
  simp [ruleSta, eq_comm]

theorem ruleStx_some :
    ruleStx res pcross s = some e ↔
      ∃ ea, eaOf res = some ea ∧ e = .plain (s.write8 ea s.x) := by
  simp [ruleStx, eq_comm]

theorem ruleSty_some :
    ruleSty res pcross s = some e ↔
      ∃ ea, eaOf res = some ea ∧ e = .plain (s.write8 ea s.y) := by
  simp [ruleSty, eq_comm]

theorem ruleAdc_some :
    ruleAdc res pcross s = some e ↔
      ∃ m, operandOf res s = some m ∧ e = .plain (s.withSum (addC s.a m (getFlag s.p .c))) := by
  simp [ruleAdc, eq_comm]

theorem ruleSbc_some :
    ruleSbc res pcross s = some e ↔
      ∃ m, operandOf res s = some m ∧ e = .plain (s.withSum (subC s.a m (getFlag s.p .c))) := by
  simp [ruleSbc, eq_comm]

theorem ruleCmp_some :
    ruleCmp res pcross s = some e ↔
      ∃ m, operandOf res s = some m ∧ e = .plain { s with p := compareFlags s.p s.a m } := by
  simp [ruleCmp, eq_comm]

theorem ruleCpx_some :
    ruleCpx res pcross s = some e ↔
      ∃ m, operandOf res s = some m ∧ e = .plain { s with p := compareFlags s.p s.x m } := by
  simp [ruleCpx, eq_comm]

theorem ruleCpy_some :
    ruleCpy res pcross s = some e ↔
      ∃ m, operandOf res s = some m ∧ e = .plain { s with p := compareFlags s.p s.y m } := by
  simp [ruleCpy, eq_comm]

theorem ruleAnd_some :
    ruleAnd res pcross s = some e ↔
      ∃ m, operandOf res s = some m ∧ e = .plain { s with a := andB s.a m, p := setZN s.p (andB s.a m) } := by
  simp [ruleAnd, eq_comm]

theorem ruleOra_some :
    ruleOra res pcross s = some e ↔
      ∃ m, operandOf res s = some m ∧ e = .plain { s with a := orB s.a m, p := setZN s.p (orB s.a m) } := by
  simp [ruleOra, eq_comm]

theorem ruleEor_some :
    ruleEor res pcross s = some e ↔
      ∃ m, operandOf res s = some m ∧ e = .plain { s with a := xorB s.a m, p := setZN s.p (xorB s.a m) } := by
  simp [ruleEor, eq_comm]

theorem ruleBit_some :
    ruleBit res pcross s = some e ↔
      ∃ m, operandOf res s = some m ∧ e = .plain { s with p := bitFlags s.p s.a m } := by
  simp [ruleBit, eq_comm]

theorem ruleAsl_some :
    ruleAsl res pcross s = some e ↔
      ∃ m t, operandOf res s = some m ∧ writeBack res (asl m).1 s = some t ∧
        e = .plain { t with p := setZN (setFlag t.p .c (asl m).2) (asl m).1 } := by
  simp [ruleAsl, shiftBack_some, Option.bind_eq_some_iff]

theorem ruleLsr_some :
    ruleLsr res pcross s = some e ↔
      ∃ m t, operandOf res s = some m ∧ writeBack res (lsr m).1 s = some t ∧
        e = .plain { t with p := setZN (setFlag t.p .c (lsr m).2) (lsr m).1 } := by
  simp [ruleLsr, shiftBack_some, Option.bind_eq_some_iff]

theorem ruleRol_some :
    ruleRol res pcross s = some e ↔
      ∃ m t, operandOf res s = some m ∧ writeBack res (rol m (getFlag s.p .c)).1 s = some t ∧
        e = .plain { t with p := setZN (setFlag t.p .c (rol m (getFlag s.p .c)).2) (rol m (getFlag s.p .c)).1 } := by
  simp [ruleRol, shiftBack_some, Option.bind_eq_some_iff]

theorem ruleRor_some :
    ruleRor res pcross s = some e ↔
      ∃ m t, operandOf res s = some m ∧ writeBack res (ror m (getFlag s.p .c)).1 s = some t ∧
        e = .plain { t with p := setZN (setFlag t.p .c (ror m (getFlag s.p .c)).2) (ror m (getFlag s.p .c)).1 } := by
  simp [ruleRor, shiftBack_some, Option.bind_eq_some_iff]

theorem ruleInc_some :
    ruleInc res pcross s = some e ↔
      ∃ m t, operandOf res s = some m ∧ writeBack res (inc8 m) s = some t ∧
        e = .plain { t with p := setZN t.p (inc8 m) } := by
  simp [ruleInc, stepBack_some, Option.bind_eq_some_iff]

theorem ruleDec_some :
    ruleDec res pcross s = some e ↔
      ∃ m t, operandOf res s = some m ∧ writeBack res (dec8 m) s = some t ∧
        e = .plain { t with p := setZN t.p (dec8 m) } := by
  simp [ruleDec, stepBack_some, Option.bind_eq_some_iff]

theorem ruleInx_some :
    ruleInx res pcross s = some e ↔
      e = .plain { s with x := inc8 s.x, p := setZN s.p (inc8 s.x) } := by
  simp [ruleInx, eq_comm]

theorem ruleIny_some :
    ruleIny res pcross s = some e ↔
      e = .plain { s with y := inc8 s.y, p := setZN s.p (inc8 s.y) } := by
  simp [ruleIny, eq_comm]

theorem ruleDex_some :
    ruleDex res pcross s = some e ↔
      e = .plain { s with x := dec8 s.x, p := setZN s.p (dec8 s.x) } := by
  simp [ruleDex, eq_comm]

theorem ruleDey_some :
    ruleDey res pcross s = some e ↔
      e = .plain { s with y := dec8 s.y, p := setZN s.p (dec8 s.y) } := by
  simp [ruleDey, eq_comm]

theorem ruleBcc_some :
    ruleBcc res pcross s = some e ↔
      ∃ target, eaOf res = some target ∧
        e = if !getFlag s.p .c then ⟨s, some target, 1 + pcross.toNat⟩ else .plain s := by
  exact branchIf_some

theorem ruleBcs_some :
    ruleBcs res pcross s = some e ↔
      ∃ target, eaOf res = some target ∧
        e = if getFlag s.p .c then ⟨s, some target, 1 + pcross.toNat⟩ else .plain s := by
  exact branchIf_some

theorem ruleBeq_some :
    ruleBeq res pcross s = some e ↔
      ∃ target, eaOf res = some target ∧
        e = if getFlag s.p .z then ⟨s, some target, 1 + pcross.toNat⟩ else .plain s := by
  exact branchIf_some

theorem ruleBne_some :
    ruleBne res pcross s = some e ↔
      ∃ target, eaOf res = some target ∧
        e = if !getFlag s.p .z then ⟨s, some target, 1 + pcross.toNat⟩ else .plain s := by
  exact branchIf_some

theorem ruleBmi_some :
    ruleBmi res pcross s = some e ↔
      ∃ target, eaOf res = some target ∧
        e = if getFlag s.p .n then ⟨s, some target, 1 + pcross.toNat⟩ else .plain s := by
  exact branchIf_some

theorem ruleBpl_some :
    ruleBpl res pcross s = some e ↔
      ∃ target, eaOf res = some target ∧
        e = if !getFlag s.p .n then ⟨s, some target, 1 + pcross.toNat⟩ else .plain s := by
  exact branchIf_some

theorem ruleBvc_some :
    ruleBvc res pcross s = some e ↔
      ∃ target, eaOf res = some target ∧
        e = if !getFlag s.p .v then ⟨s, some target, 1 + pcross.toNat⟩ else .plain s := by
  exact branchIf_some

theorem ruleBvs_some :
    ruleBvs res pcross s = some e ↔
      ∃ target, eaOf res = some target ∧
        e = if getFlag s.p .v then ⟨s, some target, 1 + pcross.toNat⟩ else .plain s := by
  exact branchIf_some

theorem ruleJmp_some :
    ruleJmp res pcross s = some e ↔
      ∃ ea, eaOf res = some ea ∧ e = .goto s ea := by
  simp [ruleJmp, eq_comm]

theorem ruleJsr_some :
    ruleJsr res pcross s = some e ↔
      ∃ ea, eaOf res = some ea ∧ e = .goto (s.pushWord (s.pc + 2)) ea := by
  simp [ruleJsr, eq_comm]

theorem ruleRts_some :
    ruleRts res pcross s = some e ↔
      e = .goto s.afterPull.afterPull (s.pulledWord + 1) := by
  simp [ruleRts, eq_comm]

theorem ruleBrk_some :
    ruleBrk res pcross s = some e ↔
      e = if s.brkHandler then .goto (s.trapEntry (s.pc + 2)) s.trapTarget
          else .plain { s with run := .halted } := by
  unfold ruleBrk; split <;> simp [eq_comm]

theorem ruleRti_some :
    ruleRti res pcross s = some e ↔
      e = .goto s.trapReturn s.trapReturnTarget := by
  simp [ruleRti, eq_comm]

theorem ruleNop_some :
    ruleNop res pcross s = some e ↔
      e = .plain s := by
  simp [ruleNop, eq_comm]

theorem rulePha_some :
    rulePha res pcross s = some e ↔
      e = .plain (s.push s.a) := by
  simp [rulePha, eq_comm]

theorem rulePhp_some :
    rulePhp res pcross s = some e ↔
      e = .plain (s.push (pushImage s.p)) := by
  simp [rulePhp, eq_comm]

theorem rulePla_some :
    rulePla res pcross s = some e ↔
      e = .plain { s.afterPull with a := s.pulled, p := setZN s.p s.pulled } := by
  simp [rulePla, eq_comm]

theorem rulePlp_some :
    rulePlp res pcross s = some e ↔
      e = .plain { s.afterPull with p := pullImage s.pulled } := by
  simp [rulePlp, eq_comm]

theorem ruleClc_some :
    ruleClc res pcross s = some e ↔
      e = .plain { s with p := setFlag s.p .c false } := by
  simp [ruleClc, eq_comm]

theorem ruleSec_some :
    ruleSec res pcross s = some e ↔
      e = .plain { s with p := setFlag s.p .c true } := by
  simp [ruleSec, eq_comm]

theorem ruleCli_some :
    ruleCli res pcross s = some e ↔
      e = .plain { s with p := setFlag s.p .i false } := by
  simp [ruleCli, eq_comm]

theorem ruleSei_some :
    ruleSei res pcross s = some e ↔
      e = .plain { s with p := setFlag s.p .i true } := by
  simp [ruleSei, eq_comm]

theorem ruleClv_some :
    ruleClv res pcross s = some e ↔
      e = .plain { s with p := setFlag s.p .v false } := by
  simp [ruleClv, eq_comm]

theorem ruleCld_some :
    ruleCld res pcross s = some e ↔
      e = .plain { s with p := setFlag s.p .d false } := by
  simp [ruleCld, eq_comm]

theorem ruleSed_some :
    ruleSed res pcross s = some e ↔
      e = .plain { s with p := setFlag s.p .d true } := by
  simp [ruleSed, eq_comm]

theorem ruleTax_some :
    ruleTax res pcross s = some e ↔
      e = .plain { s with x := s.a, p := setZN s.p s.a } := by
  simp [ruleTax, eq_comm]

theorem ruleTay_some :
    ruleTay res pcross s = some e ↔
      e = .plain { s with y := s.a, p := setZN s.p s.a } := by
  simp [ruleTay, eq_comm]

theorem ruleTxa_some :
    ruleTxa res pcross s = some e ↔
      e = .plain { s with a := s.x, p := setZN s.p s.x } := by
  simp [ruleTxa, eq_comm]

theorem ruleTya_some :
    ruleTya res pcross s = some e ↔
      e = .plain { s with a := s.y, p := setZN s.p s.y } := by
  simp [ruleTya, eq_comm]

theorem ruleTsx_some :
    ruleTsx res pcross s = some e ↔
      e = .plain { s with x := s.sp, p := setZN s.p s.sp } := by
  simp [ruleTsx, eq_comm]

theorem ruleTxs_some :
    ruleTxs res pcross s = some e ↔
      e = .plain { s with sp := s.x } := by
  simp [ruleTxs, eq_comm]

/-! ## From an executed instruction to its rule -/

/-- What executing a legal instruction did: its rule's effect, committed; or InvalidAddressing, raised. -/
theorem exec_row_next {i : Instr} {r : Row} {s t : State} (hr : i.row = some r) (h : exec i s = .next t) :
    (∃ e, ruleOf r.kind (resolve i.operand s).1 (resolve i.operand s).2 s = some e ∧
      t = e.commit r (resolve i.operand s).2 s) ∨
    (ruleOf r.kind (resolve i.operand s).1 (resolve i.operand s).2 s = none ∧
      t = s.raiseFault (.invalidAddressing r.opcode s.pc r.mode)) := by
  rw [exec_of_row hr, runRow] at h
  rcases runResolved_cases r (resolve i.operand s) (ruleOf r.kind) s with ⟨e, he, hn⟩ | ⟨hn, hf⟩
  · rw [hn] at h
    cases h
    exact .inl ⟨e, he, rfl⟩
  · rw [hf] at h
    cases h
    exact .inr ⟨hn, rfl⟩

/-- No row of the table asks an operand or address its mode does not provide (R69): every rule has an effect. -/
theorem rule_total {i : Instr} {r : Row} (hr : i.row = some r) (s : State) :
    (ruleOf r.kind (resolve i.operand s).1 (resolve i.operand s).2 s).isSome = true := by
  cases i <;> cases hr <;> first | rfl | (simp only [ruleOf, rowBrk, ruleBrk]; split <;> rfl)

/-- Executing a legal instruction commits its rule's effect. -/
theorem exec_row_commits {i : Instr} {r : Row} (hr : i.row = some r) (s : State) :
    ∃ e, ruleOf r.kind (resolve i.operand s).1 (resolve i.operand s).2 s = some e ∧
      exec i s = .next (e.commit r (resolve i.operand s).2 s) := by
  obtain ⟨e, he⟩ := Option.isSome_iff_exists.mp (rule_total hr s)
  exact ⟨e, he, by rw [exec_of_row hr, runRow, runResolved_of_some he]⟩

/-- The kind test on a legal instruction is membership of its row's kind. -/
theorem isKind_of_row {i : Instr} {r : Row} (hr : i.row = some r) (ks : List Kind) :
    isKind ks i = decide (r.kind ∈ ks) := by
  simp [isKind, hr]

theorem isKind_illegal (ks : List Kind) (op : Byte) : isKind ks (.illegal op) = false := rfl

end Sys2Proof.Machine
end

