-- ==== Sys2Proof/Laws/Run.lean ====
section
/-! SUPPORT. Runs of steps, said once from the outcome of the first step: the host's `core.run`, the step as a call, and
run_until_halt (40_dispatch.md R82). -/

namespace Sys2Proof.Machine

variable {s t : State}

/-! ## Repeated steps -/

theorem run_succ_of_next {M : Host.Core} {s t : M.State} (h : M.step s = .next t) (k : Nat) :
    M.run (k + 1) s = M.run k t := by
  simp only [Host.Core.run, h]

theorem run_succ_of_refused {M : Host.Core} {s : M.State} {r : M.Refusal} (h : M.step s = .refused r) (k : Nat) :
    M.run (k + 1) s = .refused r := by
  simp only [Host.Core.run, h]

@[simp] theorem core_run_zero (s : State) : core.run 0 s = .next s := rfl

theorem core_run_succ_of_next (h : step s = .next t) (k : Nat) : core.run (k + 1) s = core.run k t :=
  run_succ_of_next (M := core) h k

theorem core_run_succ_not_running (h : s.run ≠ .running) (k : Nat) :
    core.run (k + 1) s = .refused .notRunning :=
  run_succ_of_refused (M := core) (step_not_running h) k

/-! ## The step call -/

theorem stepCall_of_faulted {f : Fault} (h : step s = .next t) (ht : t.run = .faulted f) :
    s.stepCall = (.err f, t) := by
  simp [State.stepCall, h, ht]

theorem stepCall_of_next (h : step s = .next t) (ht : ∀ f, t.run ≠ .faulted f) :
    s.stepCall = (.ok (t.cycles - s.cycles), t) := by
  simp only [State.stepCall, h]

theorem stepCall_of_refused {r : Refusal} (h : step s = .refused r) : s.stepCall = (.refused, s) := by
  simp [State.stepCall, h]

/-! ## run_until_halt -/

theorem runUntilHalt_zero (s : State) :
    s.runUntilHalt 0 = (if s.run = .running then .unfinished else .refused, s) := rfl

theorem runUntilHalt_succ_of_running (h : step s = .next t) (ht : t.run = .running) (n : Nat) :
    s.runUntilHalt (n + 1) = t.runUntilHalt n := by
  rw [State.runUntilHalt, stepCall_of_next h (by simp [ht])]
  simp [ht]

theorem runUntilHalt_succ_of_halted (h : step s = .next t) (ht : t.run = .halted) (n : Nat) :
    s.runUntilHalt (n + 1) = (.halted, t) := by
  rw [State.runUntilHalt, stepCall_of_next h (by simp [ht])]
  simp [ht]

theorem runUntilHalt_succ_of_faulted {f : Fault} (h : step s = .next t) (ht : t.run = .faulted f) (n : Nat) :
    s.runUntilHalt (n + 1) = (.err f, t) := by
  rw [State.runUntilHalt, stepCall_of_faulted h ht]

theorem runUntilHalt_succ_not_running (h : s.run ≠ .running) (n : Nat) :
    s.runUntilHalt (n + 1) = (.refused, s) := by
  rw [State.runUntilHalt, stepCall_of_refused (step_not_running h)]

end Sys2Proof.Machine
end

