-- ==== Sys2Proof/Tests/Slice0.lean ====
section
/-! SUPPORT. The model's own tests. Expected values come from spec/: the words from opcode_table.json and 30_encoding.md
R55 and R56, the steps from the vectors of 95_test_vectors.md, whose ids stand in the names. The last part shows, for
every obligation with hypotheses, a concrete state and operands that meet them. -/

open Sys2Proof Sys2Proof.Machine

namespace Sys2Proof.Tests

/-! ## WellFormed -/

/-- Bytes with a row of their own (the lowest, a middle one and one beside an illegal byte) are no `illegal`. -/
theorem test_wf_refuses_legal_bytes :
    (Instr.illegal 0x00).wf = false ∧ (Instr.illegal 0xA9).wf = false ∧ (Instr.illegal 0xFE).wf = false := by decide

theorem test_wf_accepts : (Instr.illegal 0x02).wf = true ∧ (Instr.illegal 0xFF).wf = true ∧
    (Instr.ldaImm 0xFF).wf = true ∧ (Instr.jmpAbs 0xFFFF).wf = true := by decide

/-! ## Decode and encode: every byte value of 30_encoding.md R55 and R56, by its high digit, operand bytes 0x34, 0x12 -/


def rows0 : List (List Byte × Instr) :=
  [ ([0x00], .brk), ([0x01, 0x34], .oraIndx 0x34), ([0x02], .illegal 0x02), ([0x03], .illegal 0x03),
    ([0x04], .illegal 0x04), ([0x05, 0x34], .oraZp 0x34), ([0x06, 0x34], .aslZp 0x34), ([0x07], .illegal 0x07),
    ([0x08], .php), ([0x09, 0x34], .oraImm 0x34), ([0x0A], .aslAcc), ([0x0B], .illegal 0x0B),
    ([0x0C], .illegal 0x0C), ([0x0D, 0x34, 0x12], .oraAbs 0x1234), ([0x0E, 0x34, 0x12], .aslAbs 0x1234),
    ([0x0F], .illegal 0x0F) ]

theorem test_words_0x : ∀ row ∈ rows0, decodeBytes row.1 = some (row.2, []) ∧ encode row.2 = row.1 := by decide

def rows1 : List (List Byte × Instr) :=
  [ ([0x10, 0x34], .bpl 0x34), ([0x11, 0x34], .oraIndy 0x34), ([0x12], .illegal 0x12), ([0x13], .illegal 0x13),
    ([0x14], .illegal 0x14), ([0x15, 0x34], .oraZpx 0x34), ([0x16, 0x34], .aslZpx 0x34), ([0x17], .illegal 0x17),
    ([0x18], .clc), ([0x19, 0x34, 0x12], .oraAbsy 0x1234), ([0x1A], .illegal 0x1A), ([0x1B], .illegal 0x1B),
    ([0x1C], .illegal 0x1C), ([0x1D, 0x34, 0x12], .oraAbsx 0x1234), ([0x1E, 0x34, 0x12], .aslAbsx 0x1234),
    ([0x1F], .illegal 0x1F) ]

theorem test_words_1x : ∀ row ∈ rows1, decodeBytes row.1 = some (row.2, []) ∧ encode row.2 = row.1 := by decide

def rows2 : List (List Byte × Instr) :=
  [ ([0x20, 0x34, 0x12], .jsr 0x1234), ([0x21, 0x34], .andIndx 0x34), ([0x22], .illegal 0x22),
    ([0x23], .illegal 0x23), ([0x24, 0x34], .bitZp 0x34), ([0x25, 0x34], .andZp 0x34), ([0x26, 0x34], .rolZp 0x34),
    ([0x27], .illegal 0x27), ([0x28], .plp), ([0x29, 0x34], .andImm 0x34), ([0x2A], .rolAcc),
    ([0x2B], .illegal 0x2B), ([0x2C, 0x34, 0x12], .bitAbs 0x1234), ([0x2D, 0x34, 0x12], .andAbs 0x1234),
    ([0x2E, 0x34, 0x12], .rolAbs 0x1234), ([0x2F], .illegal 0x2F) ]

theorem test_words_2x : ∀ row ∈ rows2, decodeBytes row.1 = some (row.2, []) ∧ encode row.2 = row.1 := by decide

def rows3 : List (List Byte × Instr) :=
  [ ([0x30, 0x34], .bmi 0x34), ([0x31, 0x34], .andIndy 0x34), ([0x32], .illegal 0x32), ([0x33], .illegal 0x33),
    ([0x34], .illegal 0x34), ([0x35, 0x34], .andZpx 0x34), ([0x36, 0x34], .rolZpx 0x34), ([0x37], .illegal 0x37),
    ([0x38], .sec), ([0x39, 0x34, 0x12], .andAbsy 0x1234), ([0x3A], .illegal 0x3A), ([0x3B], .illegal 0x3B),
    ([0x3C], .illegal 0x3C), ([0x3D, 0x34, 0x12], .andAbsx 0x1234), ([0x3E, 0x34, 0x12], .rolAbsx 0x1234),
    ([0x3F], .illegal 0x3F) ]

theorem test_words_3x : ∀ row ∈ rows3, decodeBytes row.1 = some (row.2, []) ∧ encode row.2 = row.1 := by decide

def rows4 : List (List Byte × Instr) :=
  [ ([0x40], .rti), ([0x41, 0x34], .eorIndx 0x34), ([0x42], .illegal 0x42), ([0x43], .illegal 0x43),
    ([0x44], .illegal 0x44), ([0x45, 0x34], .eorZp 0x34), ([0x46, 0x34], .lsrZp 0x34), ([0x47], .illegal 0x47),
    ([0x48], .pha), ([0x49, 0x34], .eorImm 0x34), ([0x4A], .lsrAcc), ([0x4B], .illegal 0x4B),
    ([0x4C, 0x34, 0x12], .jmpAbs 0x1234), ([0x4D, 0x34, 0x12], .eorAbs 0x1234), ([0x4E, 0x34, 0x12], .lsrAbs 0x1234),
    ([0x4F], .illegal 0x4F) ]

theorem test_words_4x : ∀ row ∈ rows4, decodeBytes row.1 = some (row.2, []) ∧ encode row.2 = row.1 := by decide

def rows5 : List (List Byte × Instr) :=
  [ ([0x50, 0x34], .bvc 0x34), ([0x51, 0x34], .eorIndy 0x34), ([0x52], .illegal 0x52), ([0x53], .illegal 0x53),
    ([0x54], .illegal 0x54), ([0x55, 0x34], .eorZpx 0x34), ([0x56, 0x34], .lsrZpx 0x34), ([0x57], .illegal 0x57),
    ([0x58], .cli), ([0x59, 0x34, 0x12], .eorAbsy 0x1234), ([0x5A], .illegal 0x5A), ([0x5B], .illegal 0x5B),
    ([0x5C], .illegal 0x5C), ([0x5D, 0x34, 0x12], .eorAbsx 0x1234), ([0x5E, 0x34, 0x12], .lsrAbsx 0x1234),
    ([0x5F], .illegal 0x5F) ]

theorem test_words_5x : ∀ row ∈ rows5, decodeBytes row.1 = some (row.2, []) ∧ encode row.2 = row.1 := by decide

def rows6 : List (List Byte × Instr) :=
  [ ([0x60], .rts), ([0x61, 0x34], .adcIndx 0x34), ([0x62], .illegal 0x62), ([0x63], .illegal 0x63),
    ([0x64], .illegal 0x64), ([0x65, 0x34], .adcZp 0x34), ([0x66, 0x34], .rorZp 0x34), ([0x67], .illegal 0x67),
    ([0x68], .pla), ([0x69, 0x34], .adcImm 0x34), ([0x6A], .rorAcc), ([0x6B], .illegal 0x6B),
    ([0x6C, 0x34, 0x12], .jmpInd 0x1234), ([0x6D, 0x34, 0x12], .adcAbs 0x1234), ([0x6E, 0x34, 0x12], .rorAbs 0x1234),
    ([0x6F], .illegal 0x6F) ]

theorem test_words_6x : ∀ row ∈ rows6, decodeBytes row.1 = some (row.2, []) ∧ encode row.2 = row.1 := by decide

def rows7 : List (List Byte × Instr) :=
  [ ([0x70, 0x34], .bvs 0x34), ([0x71, 0x34], .adcIndy 0x34), ([0x72], .illegal 0x72), ([0x73], .illegal 0x73),
    ([0x74], .illegal 0x74), ([0x75, 0x34], .adcZpx 0x34), ([0x76, 0x34], .rorZpx 0x34), ([0x77], .illegal 0x77),
    ([0x78], .sei), ([0x79, 0x34, 0x12], .adcAbsy 0x1234), ([0x7A], .illegal 0x7A), ([0x7B], .illegal 0x7B),
    ([0x7C], .illegal 0x7C), ([0x7D, 0x34, 0x12], .adcAbsx 0x1234), ([0x7E, 0x34, 0x12], .rorAbsx 0x1234),
    ([0x7F], .illegal 0x7F) ]

theorem test_words_7x : ∀ row ∈ rows7, decodeBytes row.1 = some (row.2, []) ∧ encode row.2 = row.1 := by decide

def rows8 : List (List Byte × Instr) :=
  [ ([0x80], .illegal 0x80), ([0x81, 0x34], .staIndx 0x34), ([0x82], .illegal 0x82), ([0x83], .illegal 0x83),
    ([0x84, 0x34], .styZp 0x34), ([0x85, 0x34], .staZp 0x34), ([0x86, 0x34], .stxZp 0x34), ([0x87], .illegal 0x87),
    ([0x88], .dey), ([0x89], .illegal 0x89), ([0x8A], .txa), ([0x8B], .illegal 0x8B),
    ([0x8C, 0x34, 0x12], .styAbs 0x1234), ([0x8D, 0x34, 0x12], .staAbs 0x1234), ([0x8E, 0x34, 0x12], .stxAbs 0x1234),
    ([0x8F], .illegal 0x8F) ]

theorem test_words_8x : ∀ row ∈ rows8, decodeBytes row.1 = some (row.2, []) ∧ encode row.2 = row.1 := by decide

def rows9 : List (List Byte × Instr) :=
  [ ([0x90, 0x34], .bcc 0x34), ([0x91, 0x34], .staIndy 0x34), ([0x92], .illegal 0x92), ([0x93], .illegal 0x93),
    ([0x94, 0x34], .styZpx 0x34), ([0x95, 0x34], .staZpx 0x34), ([0x96, 0x34], .stxZpy 0x34),
    ([0x97], .illegal 0x97), ([0x98], .tya), ([0x99, 0x34, 0x12], .staAbsy 0x1234), ([0x9A], .txs),
    ([0x9B], .illegal 0x9B), ([0x9C], .illegal 0x9C), ([0x9D, 0x34, 0x12], .staAbsx 0x1234), ([0x9E], .illegal 0x9E),
    ([0x9F], .illegal 0x9F) ]

theorem test_words_9x : ∀ row ∈ rows9, decodeBytes row.1 = some (row.2, []) ∧ encode row.2 = row.1 := by decide

def rowsA : List (List Byte × Instr) :=
  [ ([0xA0, 0x34], .ldyImm 0x34), ([0xA1, 0x34], .ldaIndx 0x34), ([0xA2, 0x34], .ldxImm 0x34),
    ([0xA3], .illegal 0xA3), ([0xA4, 0x34], .ldyZp 0x34), ([0xA5, 0x34], .ldaZp 0x34), ([0xA6, 0x34], .ldxZp 0x34),
    ([0xA7], .illegal 0xA7), ([0xA8], .tay), ([0xA9, 0x34], .ldaImm 0x34), ([0xAA], .tax), ([0xAB], .illegal 0xAB),
    ([0xAC, 0x34, 0x12], .ldyAbs 0x1234), ([0xAD, 0x34, 0x12], .ldaAbs 0x1234), ([0xAE, 0x34, 0x12], .ldxAbs 0x1234),
    ([0xAF], .illegal 0xAF) ]

theorem test_words_Ax : ∀ row ∈ rowsA, decodeBytes row.1 = some (row.2, []) ∧ encode row.2 = row.1 := by decide

def rowsB : List (List Byte × Instr) :=
  [ ([0xB0, 0x34], .bcs 0x34), ([0xB1, 0x34], .ldaIndy 0x34), ([0xB2], .illegal 0xB2), ([0xB3], .illegal 0xB3),
    ([0xB4, 0x34], .ldyZpx 0x34), ([0xB5, 0x34], .ldaZpx 0x34), ([0xB6, 0x34], .ldxZpy 0x34),
    ([0xB7], .illegal 0xB7), ([0xB8], .clv), ([0xB9, 0x34, 0x12], .ldaAbsy 0x1234), ([0xBA], .tsx),
    ([0xBB], .illegal 0xBB), ([0xBC, 0x34, 0x12], .ldyAbsx 0x1234), ([0xBD, 0x34, 0x12], .ldaAbsx 0x1234),
    ([0xBE, 0x34, 0x12], .ldxAbsy 0x1234), ([0xBF], .illegal 0xBF) ]

theorem test_words_Bx : ∀ row ∈ rowsB, decodeBytes row.1 = some (row.2, []) ∧ encode row.2 = row.1 := by decide

def rowsC : List (List Byte × Instr) :=
  [ ([0xC0, 0x34], .cpyImm 0x34), ([0xC1, 0x34], .cmpIndx 0x34), ([0xC2], .illegal 0xC2), ([0xC3], .illegal 0xC3),
    ([0xC4, 0x34], .cpyZp 0x34), ([0xC5, 0x34], .cmpZp 0x34), ([0xC6, 0x34], .decZp 0x34), ([0xC7], .illegal 0xC7),
    ([0xC8], .iny), ([0xC9, 0x34], .cmpImm 0x34), ([0xCA], .dex), ([0xCB], .illegal 0xCB),
    ([0xCC, 0x34, 0x12], .cpyAbs 0x1234), ([0xCD, 0x34, 0x12], .cmpAbs 0x1234), ([0xCE, 0x34, 0x12], .decAbs 0x1234),
    ([0xCF], .illegal 0xCF) ]

theorem test_words_Cx : ∀ row ∈ rowsC, decodeBytes row.1 = some (row.2, []) ∧ encode row.2 = row.1 := by decide

def rowsD : List (List Byte × Instr) :=
  [ ([0xD0, 0x34], .bne 0x34), ([0xD1, 0x34], .cmpIndy 0x34), ([0xD2], .illegal 0xD2), ([0xD3], .illegal 0xD3),
    ([0xD4], .illegal 0xD4), ([0xD5, 0x34], .cmpZpx 0x34), ([0xD6, 0x34], .decZpx 0x34), ([0xD7], .illegal 0xD7),
    ([0xD8], .cld), ([0xD9, 0x34, 0x12], .cmpAbsy 0x1234), ([0xDA], .illegal 0xDA), ([0xDB], .illegal 0xDB),
    ([0xDC], .illegal 0xDC), ([0xDD, 0x34, 0x12], .cmpAbsx 0x1234), ([0xDE, 0x34, 0x12], .decAbsx 0x1234),
    ([0xDF], .illegal 0xDF) ]

theorem test_words_Dx : ∀ row ∈ rowsD, decodeBytes row.1 = some (row.2, []) ∧ encode row.2 = row.1 := by decide

def rowsE : List (List Byte × Instr) :=
  [ ([0xE0, 0x34], .cpxImm 0x34), ([0xE1, 0x34], .sbcIndx 0x34), ([0xE2], .illegal 0xE2), ([0xE3], .illegal 0xE3),
    ([0xE4, 0x34], .cpxZp 0x34), ([0xE5, 0x34], .sbcZp 0x34), ([0xE6, 0x34], .incZp 0x34), ([0xE7], .illegal 0xE7),
    ([0xE8], .inx), ([0xE9, 0x34], .sbcImm 0x34), ([0xEA], .nop), ([0xEB], .illegal 0xEB),
    ([0xEC, 0x34, 0x12], .cpxAbs 0x1234), ([0xED, 0x34, 0x12], .sbcAbs 0x1234), ([0xEE, 0x34, 0x12], .incAbs 0x1234),
    ([0xEF], .illegal 0xEF) ]

theorem test_words_Ex : ∀ row ∈ rowsE, decodeBytes row.1 = some (row.2, []) ∧ encode row.2 = row.1 := by decide

def rowsF : List (List Byte × Instr) :=
  [ ([0xF0, 0x34], .beq 0x34), ([0xF1, 0x34], .sbcIndy 0x34), ([0xF2], .illegal 0xF2), ([0xF3], .illegal 0xF3),
    ([0xF4], .illegal 0xF4), ([0xF5, 0x34], .sbcZpx 0x34), ([0xF6, 0x34], .incZpx 0x34), ([0xF7], .illegal 0xF7),
    ([0xF8], .sed), ([0xF9, 0x34, 0x12], .sbcAbsy 0x1234), ([0xFA], .illegal 0xFA), ([0xFB], .illegal 0xFB),
    ([0xFC], .illegal 0xFC), ([0xFD, 0x34, 0x12], .sbcAbsx 0x1234), ([0xFE, 0x34, 0x12], .incAbsx 0x1234),
    ([0xFF], .illegal 0xFF) ]

theorem test_words_Fx : ∀ row ∈ rowsF, decodeBytes row.1 = some (row.2, []) ∧ encode row.2 = row.1 := by decide

/-- A list that ends inside an instruction decodes to nothing; bytes after one are left. -/
theorem test_decode_ends : decodeBytes [] = none ∧ decodeBytes [0xA9] = none ∧ decodeBytes [0x4C, 0x00] = none ∧
    decodeBytes [0xEA, 0x02] = some (.nop, [0x02]) := by decide

/-- Table words: the first byte is the low one, and bits above nbits are operand bytes of zeros. -/
theorem test_decodeTableWord : decodeTableWord 24 0x90004C = some (.jmpAbs 0x9000) ∧
    decodeTableWord 16 0x05A9 = some (.ldaImm 0x05) ∧ decodeTableWord 8 0x4C = some (.jmpAbs 0x0000) ∧
    decodeTableWord 8 0x02 = some (.illegal 0x02) := by decide

/-! ## One step, from the vectors of 95_test_vectors.md -/

/-- The reset state with the code bytes and the listed memory bytes, PC at the code. -/
def startAt (code : Word) (bytes : List Byte) (cells : List (Word × Byte)) : State :=
  (bytes.zipIdx.map (fun c => (code + BitVec.ofNat 16 c.2, c.1)) ++ cells).foldl (fun s c => s.write8 c.1 c.2)
    (State.boot [] false code)

/-- What is looked at after one step. -/
def after {α : Type} (s : State) (look : State → α) : Option α :=
  match step s with
  | .next t => some (look t)
  | .fault _ => none
  | .refused _ => none

theorem test_A01_ldaZp : after (startAt 0x8000 [0xA5, 0x10] [(0x0010, 0x99)])
    (fun t => (t.a, t.p)) = some (0x99, 0xA4) := by decide

theorem test_A02_ldaZpx : after { startAt 0x8000 [0xB5, 0xF0] [(0x0010, 0x01)] with x := 0x20 }
    (fun t => (t.a, t.cycles)) = some (0x01, 4) := by decide

theorem test_A03_ldaZpx : after { startAt 0x8000 [0xB5, 0xFF] [(0x00FE, 0x7E)] with x := 0xFF }
    (fun t => (t.a, t.cycles)) = some (0x7E, 4) := by decide

theorem test_A04_ldxZpy : after { startAt 0x8000 [0xB6, 0x80] [(0x0010, 0x42)] with y := 0x90 }
    (fun t => (t.x, t.cycles)) = some (0x42, 4) := by decide

theorem test_A05_ldaAbs : after (startAt 0x8000 [0xAD, 0x34, 0x12] [(0x1234, 0x01)])
    (fun t => (t.a, t.cycles)) = some (0x01, 4) := by decide

theorem test_A07_ldaAbsx : after { startAt 0x8000 [0xBD, 0xF0, 0x12] [(0x1300, 0x03)] with x := 0x10 }
    (fun t => (t.a, t.cycles)) = some (0x03, 5) := by decide

theorem test_A08_ldaAbsx : after { startAt 0x8000 [0xBD, 0xFF, 0xFF] [(0x0000, 0x04)] with x := 0x01 }
    (fun t => (t.a, t.cycles)) = some (0x04, 5) := by decide

theorem test_A09_ldaAbsy : after { startAt 0x8000 [0xB9, 0x80, 0x12] [(0x1300, 0x05)] with y := 0x80 }
    (fun t => (t.a, t.cycles)) = some (0x05, 5) := by decide

theorem test_A11_ldaIndx : after { startAt 0x8000 [0xA1, 0x80] [(0x0010, 0x00), (0x0011, 0x03), (0x0300, 0x66)] with x := 0x90 }
    (fun t => (t.a, t.cycles)) = some (0x66, 6) := by decide

theorem test_A12_ldaIndx : after { startAt 0x8000 [0xA1, 0xFE] [(0x00FF, 0x00), (0x0000, 0x04), (0x0400, 0x77), (0x0100, 0xEE)] with x := 0x01 }
    (fun t => (t.a, t.cycles)) = some (0x77, 6) := by decide

theorem test_A13_ldaIndy : after { startAt 0x8000 [0xB1, 0x86] [(0x0086, 0x28), (0x0087, 0x40), (0x4038, 0x08)] with y := 0x10 }
    (fun t => (t.a, t.cycles)) = some (0x08, 5) := by decide

theorem test_A15_ldaIndy : after { startAt 0x8000 [0xB1, 0xFF] [(0x00FF, 0x00), (0x0000, 0x03), (0x0300, 0x0A), (0x0100, 0xEE)] with y := 0x00 }
    (fun t => (t.a, t.cycles)) = some (0x0A, 5) := by decide

theorem test_A16_ldaImm : after (startAt 0xFFFF [0xA9] [(0x0000, 0x80)])
    (fun t => (t.a, t.p, t.pc)) = some (0x80, 0xA4, 0x0001) := by decide

theorem test_A17_nop : after (startAt 0xFFFF [0xEA] [])
    (fun t => (t.pc, t.cycles)) = some (0x0000, 2) := by decide

theorem test_A18_ldaAbs : after (startAt 0xFFFE [0xAD, 0x00] [(0x0000, 0x20), (0x2000, 0x31)])
    (fun t => (t.a, t.pc)) = some (0x31, 0x0001) := by decide

theorem test_LS2_ldaImm : after { startAt 0x8000 [0xA9, 0x00] [] with a := 0x44, p := 0x65 }
    (fun t => (t.a, t.p)) = some (0x00, 0x67) := by decide

theorem test_LS3_ldxAbsy : after { startAt 0x8000 [0xBE, 0xF0, 0x12] [(0x1300, 0x00)] with x := 0x33, y := 0x10 }
    (fun t => (t.x, t.p, t.cycles)) = some (0x00, 0x26, 5) := by decide

theorem test_LS4_ldyAbsx : after { startAt 0x8000 [0xBC, 0xF0, 0x12] [(0x1300, 0xFF)] with x := 0x10 }
    (fun t => (t.y, t.p, t.cycles)) = some (0xFF, 0xA4, 5) := by decide

theorem test_LS5_staAbsx : after { startAt 0x8000 [0x9D, 0xF0, 0x12] [] with a := 0x11, x := 0x10 }
    (fun t => (t.read8 0x1300, t.cycles)) = some (0x11, 5) := by decide

theorem test_LS6_staIndy : after { startAt 0x8000 [0x91, 0x86] [(0x0086, 0xF8), (0x0087, 0x40)] with a := 0x22, y := 0x10 }
    (fun t => (t.read8 0x4108, t.cycles)) = some (0x22, 6) := by decide

theorem test_LS7_staIndx : after { startAt 0x8000 [0x81, 0x20] [(0x0024, 0x00), (0x0025, 0x02)] with a := 0x33, x := 0x04 }
    (fun t => (t.read8 0x0200, t.cycles)) = some (0x33, 6) := by decide

theorem test_LS8_stxAbs : after { startAt 0x8000 [0x8E, 0x02, 0x80] [] with x := 0xEA }
    (fun t => (t.read8 0x8002, t.cycles)) = some (0xEA, 4) := by decide

theorem test_LS9_styZp : after { startAt 0x8000 [0x84, 0x10] [] with y := 0x00, p := 0xA5 }
    (fun t => t.cycles) = some 3 := by decide

theorem test_AR7_adcImm : after { startAt 0x8000 [0x69, 0x90] [] with a := 0xD0, p := 0x24 }
    (fun t => (t.a, t.p)) = some (0x60, 0x65) := by decide

theorem test_AR11_adcImm : after { startAt 0x8000 [0x69, 0x01] [] with a := 0x09, p := 0x2C }
    (fun t => (t.a, t.cycles)) = some (0x0A, 2) := by decide

theorem test_SB7_sbcImm : after { startAt 0x8000 [0xE9, 0x70] [] with a := 0xD0, p := 0x25 }
    (fun t => (t.a, t.p)) = some (0x60, 0x65) := by decide

theorem test_SB10_sbcImm : after { startAt 0x8000 [0xE9, 0x00] [] with a := 0x80, p := 0x24 }
    (fun t => (t.a, t.p)) = some (0x7F, 0x65) := by decide

theorem test_CP2_cmpImm : after { startAt 0x8000 [0xC9, 0x41] [] with a := 0x40, p := 0x24 }
    (fun t => (t.p, t.cycles)) = some (0xA4, 2) := by decide

theorem test_CP6_cmpImm : after { startAt 0x8000 [0xC9, 0x05] [] with a := 0x05, p := 0x64 }
    (fun t => (t.p, t.cycles)) = some (0x67, 2) := by decide

theorem test_CP7_cpxImm : after { startAt 0x8000 [0xE0, 0x20] [] with x := 0x10, p := 0x24 }
    (fun t => (t.p, t.cycles)) = some (0xA4, 2) := by decide

theorem test_CP8_cpyImm : after { startAt 0x8000 [0xC0, 0xFF] [] with y := 0xFF, p := 0x24 }
    (fun t => (t.p, t.cycles)) = some (0x27, 2) := by decide

theorem test_LG1_andImm : after { startAt 0x8000 [0x29, 0x0F] [] with a := 0xF0 }
    (fun t => (t.a, t.p)) = some (0x00, 0x26) := by decide

theorem test_LG2_oraImm : after { startAt 0x8000 [0x09, 0x00] [] with a := 0x00, p := 0xA5 }
    (fun t => (t.p, t.cycles)) = some (0x27, 2) := by decide

theorem test_LG3_eorImm : after { startAt 0x8000 [0x49, 0xFF] [] with a := 0x55 }
    (fun t => (t.a, t.p)) = some (0xAA, 0xA4) := by decide

theorem test_LG4_bitAbs : after { startAt 0x8000 [0x2C, 0x00, 0x02] [(0x0200, 0xF0)] with a := 0x0F, p := 0x25 }
    (fun t => (t.p, t.cycles)) = some (0xE7, 4) := by decide

theorem test_LG5_bitZp : after { startAt 0x8000 [0x24, 0x10] [(0x0010, 0x01)] with a := 0x01, p := 0xE4 }
    (fun t => (t.p, t.cycles)) = some (0x24, 3) := by decide

theorem test_SH1_aslAcc : after { startAt 0x8000 [0x0A] [] with a := 0x80 }
    (fun t => (t.a, t.p)) = some (0x00, 0x27) := by decide

theorem test_SH2_lsrAcc : after { startAt 0x8000 [0x4A] [] with a := 0x01, p := 0xA4 }
    (fun t => (t.a, t.p)) = some (0x00, 0x27) := by decide

theorem test_SH3_rolAcc : after { startAt 0x8000 [0x2A] [] with a := 0x00, p := 0x25 }
    (fun t => (t.a, t.p)) = some (0x01, 0x24) := by decide

theorem test_SH4_rorAcc : after { startAt 0x8000 [0x6A] [] with a := 0x00, p := 0x25 }
    (fun t => (t.a, t.p)) = some (0x80, 0xA4) := by decide

theorem test_SH5_rorZp : after { startAt 0x8000 [0x66, 0x10] [(0x0010, 0x03)] with p := 0x24 }
    (fun t => (t.read8 0x0010, t.p)) = some (0x01, 0x25) := by decide

theorem test_SH6_aslAbsx : after { startAt 0x8000 [0x1E, 0xF0, 0x12] [(0x1300, 0x41)] with x := 0x10 }
    (fun t => (t.read8 0x1300, t.p)) = some (0x82, 0xA4) := by decide

theorem test_SH7_rolAbs : after { startAt 0x8000 [0x2E, 0x00, 0x02] [(0x0200, 0xC0)] with p := 0x24 }
    (fun t => (t.read8 0x0200, t.p)) = some (0x80, 0xA5) := by decide

theorem test_ID1_incZp : after { startAt 0x8000 [0xE6, 0x10] [(0x0010, 0xFF)] with p := 0x25 }
    (fun t => (t.read8 0x0010, t.p)) = some (0x00, 0x27) := by decide

theorem test_ID2_decZp : after (startAt 0x8000 [0xC6, 0x10] [(0x0010, 0x00)])
    (fun t => (t.read8 0x0010, t.p)) = some (0xFF, 0xA4) := by decide

theorem test_ID3_incAbsx : after { startAt 0x8000 [0xFE, 0xF0, 0x12] [(0x1300, 0x7F)] with x := 0x10 }
    (fun t => (t.read8 0x1300, t.p)) = some (0x80, 0xA4) := by decide

theorem test_ID4_decZpx : after { startAt 0x8000 [0xD6, 0xFF] [(0x0001, 0x01)] with x := 0x02 }
    (fun t => (t.read8 0x0001, t.p)) = some (0x00, 0x26) := by decide

theorem test_ID5_inx : after { startAt 0x8000 [0xE8] [] with x := 0xFF }
    (fun t => (t.x, t.p)) = some (0x00, 0x26) := by decide

theorem test_ID6_iny : after { startAt 0x8000 [0xC8] [] with y := 0x7F }
    (fun t => (t.y, t.p)) = some (0x80, 0xA4) := by decide

theorem test_ID7_dex : after { startAt 0x8000 [0xCA] [] with x := 0x00 }
    (fun t => (t.x, t.p)) = some (0xFF, 0xA4) := by decide

theorem test_ID8_dey : after { startAt 0x8000 [0x88] [] with y := 0x01 }
    (fun t => (t.y, t.p)) = some (0x00, 0x26) := by decide

theorem test_BR2_bne : after { startAt 0x8000 [0xD0, 0x05] [] with p := 0x24 }
    (fun t => (t.pc, t.cycles)) = some (0x8007, 3) := by decide

theorem test_BR4_bcc : after { startAt 0x80F0 [0x90, 0x10] [] with p := 0x24 }
    (fun t => (t.pc, t.cycles)) = some (0x8102, 4) := by decide

theorem test_BR5_bcs : after { startAt 0x8010 [0xB0, 0x80] [] with p := 0x25 }
    (fun t => (t.pc, t.cycles)) = some (0x7F92, 4) := by decide

theorem test_BR6_beq : after { startAt 0x8000 [0xF0, 0xFE] [] with p := 0x26 }
    (fun t => (t.pc, t.cycles)) = some (0x8000, 3) := by decide

theorem test_BR7_bpl : after { startAt 0x8000 [0x10, 0x00] [] with p := 0x24 }
    (fun t => (t.pc, t.cycles)) = some (0x8002, 3) := by decide

theorem test_BR8_bmi : after { startAt 0x8000 [0x30, 0x10] [] with p := 0x24 }
    (fun t => (t.pc, t.cycles)) = some (0x8002, 2) := by decide

theorem test_BR9_bvc : after { startAt 0xFFFE [0x50, 0x10] [] with p := 0x24 }
    (fun t => (t.pc, t.cycles)) = some (0x0010, 3) := by decide

theorem test_BR10_bvs : after { startAt 0x8000 [0x70, 0x02] [] with p := 0x64 }
    (fun t => (t.pc, t.cycles)) = some (0x8004, 3) := by decide

theorem test_BR11_beq : after { startAt 0x80FD [0xF0, 0x01] [] with p := 0x26 }
    (fun t => (t.pc, t.cycles)) = some (0x8100, 4) := by decide

theorem test_BR12_bne : after { startAt 0x80FE [0xD0, 0x01] [] with p := 0x24 }
    (fun t => (t.pc, t.cycles)) = some (0x8101, 3) := by decide

theorem test_JP1_jmpInd : after (startAt 0x8000 [0x6C, 0x00, 0x03] [(0x0300, 0x34), (0x0301, 0x12)])
    (fun t => (t.pc, t.cycles)) = some (0x1234, 5) := by decide

theorem test_JP2_jmpInd : after (startAt 0x8000 [0x6C, 0xFF, 0x02] [(0x02FF, 0x00), (0x0200, 0x90), (0x0300, 0x70)])
    (fun t => (t.pc, t.cycles)) = some (0x9000, 5) := by decide

theorem test_JP3_jsr : after { startAt 0x8000 [0x20, 0x00, 0x90] [] with sp := 0x00 }
    (fun t => (t.read8 0x0100, t.read8 0x01FF, t.sp, t.pc)) = some (0x80, 0x02, 0xFE, 0x9000) := by decide

theorem test_JP4_jsr : after (startAt 0xFFFD [0x20, 0x34, 0x12] [])
    (fun t => (t.read8 0x01FC, t.read8 0x01FD, t.sp, t.pc)) = some (0xFF, 0xFF, 0xFB, 0x1234) := by decide

theorem test_JP5_rts : after { startAt 0x8000 [0x60] [(0x01FC, 0xFF), (0x01FD, 0xFF)] with sp := 0xFB }
    (fun t => (t.sp, t.pc)) = some (0xFD, 0x0000) := by decide

theorem test_JP6_rts : after { startAt 0x8000 [0x60] [(0x0100, 0x02), (0x0101, 0x90)] with sp := 0xFF }
    (fun t => (t.sp, t.pc)) = some (0x01, 0x9003) := by decide

theorem test_JP7_brk : after { startAt 0x8000 [0x00] [] with p := 0xE7 }
    (fun t => (t.pc, t.cycles, t.run)) = some (0x8001, 7, .halted) := by decide

theorem test_JP8_brk : after { startAt 0x8000 [0x00] [(0xFFFE, 0x00), (0xFFFF, 0x90)] with p := 0xCB, brkHandler := true }
    (fun t => (t.read8 0x01FB, t.read8 0x01FC, t.p, t.pc)) = some (0xFB, 0x02, 0xCF, 0x9000) := by decide

theorem test_JP10_rti : after { startAt 0x8000 [0x40] [(0x01FB, 0x10), (0x01FC, 0x34), (0x01FD, 0x12)] with sp := 0xFA }
    (fun t => (t.sp, t.p, t.pc)) = some (0xFD, 0x20, 0x1234) := by decide

theorem test_JP11_rti : after { startAt 0x8000 [0x40] [(0x01FB, 0xC3), (0x01FC, 0xFF), (0x01FD, 0x80)] with sp := 0xFA }
    (fun t => (t.sp, t.p, t.pc)) = some (0xFD, 0xE3, 0x80FF) := by decide

theorem test_ST1_pha : after { startAt 0x8000 [0x48] [] with a := 0x5A, sp := 0x00 }
    (fun t => (t.read8 0x0100, t.sp)) = some (0x5A, 0xFF) := by decide

theorem test_ST2_pla : after { startAt 0x8000 [0x68] [(0x0100, 0x00)] with a := 0x33, sp := 0xFF }
    (fun t => (t.a, t.sp, t.p)) = some (0x00, 0x00, 0x26) := by decide

theorem test_ST4_php : after { startAt 0x8000 [0x08] [] with p := 0xEF }
    (fun t => (t.read8 0x01FD, t.sp)) = some (0xFF, 0xFC) := by decide

theorem test_ST5_plp : after { startAt 0x8000 [0x28] [(0x01FD, 0xFF)] with sp := 0xFC }
    (fun t => (t.sp, t.p)) = some (0xFD, 0xEF) := by decide

theorem test_ST6_plp : after { startAt 0x8000 [0x28] [(0x01FD, 0x00)] with sp := 0xFC }
    (fun t => (t.sp, t.p)) = some (0xFD, 0x20) := by decide

theorem test_FT1_clc : after { startAt 0x8000 [0x18] [] with p := 0xE7 }
    (fun t => (t.p, t.cycles)) = some (0xE6, 2) := by decide

theorem test_FT2_sec : after (startAt 0x8000 [0x38] [])
    (fun t => (t.p, t.cycles)) = some (0x25, 2) := by decide

theorem test_FT3_cli : after (startAt 0x8000 [0x58] [])
    (fun t => (t.p, t.cycles)) = some (0x20, 2) := by decide

theorem test_FT4_sei : after { startAt 0x8000 [0x78] [] with p := 0x20 }
    (fun t => (t.p, t.cycles)) = some (0x24, 2) := by decide

theorem test_FT5_clv : after { startAt 0x8000 [0xB8] [] with p := 0xE5 }
    (fun t => (t.p, t.cycles)) = some (0xA5, 2) := by decide

theorem test_FT6_cld : after { startAt 0x8000 [0xD8] [] with p := 0x2C }
    (fun t => (t.p, t.cycles)) = some (0x24, 2) := by decide

theorem test_FT7_sed : after (startAt 0x8000 [0xF8] [])
    (fun t => (t.p, t.cycles)) = some (0x2C, 2) := by decide

theorem test_FT8_tax : after { startAt 0x8000 [0xAA] [] with a := 0x00, x := 0x55, p := 0xA4 }
    (fun t => (t.x, t.p)) = some (0x00, 0x26) := by decide

theorem test_FT9_tay : after { startAt 0x8000 [0xA8] [] with a := 0xFF }
    (fun t => (t.y, t.p)) = some (0xFF, 0xA4) := by decide

theorem test_FT10_txa : after { startAt 0x8000 [0x8A] [] with x := 0x01, a := 0x80, p := 0xA4 }
    (fun t => (t.a, t.p)) = some (0x01, 0x24) := by decide

theorem test_FT11_tya : after { startAt 0x8000 [0x98] [] with y := 0x00, a := 0x12 }
    (fun t => (t.a, t.p)) = some (0x00, 0x26) := by decide

theorem test_FT12_tsx : after { startAt 0x8000 [0xBA] [] with x := 0x33, sp := 0x00 }
    (fun t => (t.x, t.p)) = some (0x00, 0x26) := by decide

theorem test_FT13_txs : after { startAt 0x8000 [0x9A] [] with x := 0x00, p := 0xA4 }
    (fun t => (t.sp, t.cycles)) = some (0x00, 2) := by decide

/-- DX1: an illegal byte raises its fault and changes nothing else. -/
theorem test_DX1_illegal : after { startAt 0x8000 [0x02] [] with a := 0x12, p := 0xE5 }
    (fun t => (t.run, t.pc, t.cycles)) = some (.faulted (.illegalOpcode 0x02 0x8000), 0x8000, 0) := by decide

/-! ## The host interface: vectors H1 to H11 -/

/-- H1 and H2: the last byte of the address space may be loaded, one more is rejected. -/
theorem test_H1_H2_load : State.reset.load 0xFFFF [0x01] = .ok (State.reset.write8 0xFFFF 0x01) ∧
    State.reset.load 0xFFFF [0x07, 0x02] = .error ⟨0xFFFF, 2⟩ ∧ (⟨0xFFFF, 2⟩ : LoadOutOfRange).code = 3 :=
  ⟨rfl, rfl, rfl⟩

/-- H3: an empty load changes nothing. -/
theorem test_H3_load_nothing : State.reset.load 0x1234 [] = .ok State.reset := rfl

/-- H5, H6: the fault as the call returns it; the next call is refused. -/
theorem test_H5_H6_fault : (startAt 0x8000 [0x02] []).stepCall.1 = .err (.illegalOpcode 0x02 0x8000) ∧
    (startAt 0x8000 [0x02] []).stepCall.2.stepCall.1 = .refused := by decide

/-- H7: reset leaves Faulted, goes to its entry and keeps memory. -/
theorem test_H7_reset : ((startAt 0x8000 [0x02] []).stepCall.2.resetTo 0x8001).run = .running ∧
    ((startAt 0x8000 [0x02] []).stepCall.2.resetTo 0x8001).pc = 0x8001 ∧
    ((startAt 0x8000 [0x02] []).stepCall.2.resetTo 0x8001).read8 0x8000 = 0x02 := by decide

/-- H8, H9: a halting BRK returns its 7 cycles and pushes nothing; the next call is refused. -/
theorem test_H8_H9_halt : (startAt 0x8001 [0x00] []).stepCall.1 = .ok 7 ∧
    (startAt 0x8001 [0x00] []).stepCall.2.sp = 0xFD ∧ (startAt 0x8001 [0x00] []).stepCall.2.stepCall.1 = .refused := by
  decide

/-- R82: the loop ends at a halt, at a fault, and at once when the machine does not run. -/
theorem test_runUntilHalt : ((startAt 0x8000 [0xEA, 0x00] []).runUntilHalt 2).1 = .halted ∧
    ((startAt 0x8000 [0xEA, 0x02] []).runUntilHalt 2).1 = .err (.illegalOpcode 0x02 0x8001) ∧
    ((startAt 0x8000 [0xEA, 0x00] []).runUntilHalt 1).1 = .unfinished ∧
    ({ State.reset with run := .halted }.runUntilHalt 5).1 = .refused := by decide

/-- R31: P is read with U set and B clear. -/
theorem test_readP : State.reset.readP = 0x24 ∧ State.reset.readFlag .u = true ∧ State.reset.readFlag .b = false := by
  decide

/-- R69, R157: a rule that needs an address, on a mode with none. -/
theorem test_invalidAddressing_is_none : eaOf .accumulator = none ∧ operandOf .none State.reset = none ∧
    writeBack .none 0x00 State.reset = none ∧ (Fault.invalidAddressing 0x00 0x8000 .implied).code = 2 := by decide

/-- The host's word is fetched by the very next step. -/
theorem test_withFetchWord : after (State.reset.withFetchWord 24 0x90004C) (fun t => (t.pc, t.cycles)) = some (0x9000, 3) ∧
    after (State.reset.withFetchWord 8 0x02) (fun t => t.run) = some (.faulted (.illegalOpcode 0x02 0x8000)) := by decide

/-! ## Memory -/

theorem test_memory_canonical : Memory.write (Memory.write (Memory.write [] 5 0x01) 2 0x03) 5 0x00 = [(2, 0x03)] ∧
    Memory.wf [(5, 0x01), (2, 0x03)] = false ∧ Memory.wf [(2, 0x00)] = false ∧ Memory.wf [(65536, 0x01)] = false := by decide

/-! ## The hypotheses of the obligations can be met -/

/-- The machine stopped by a halt, and by a fault. -/
def halted : State := { State.reset with run := .halted }
def faulted : State := { State.reset with run := .faulted (.illegalOpcode 0x02 0x8000) }

theorem witness_StepRefusesExactlyWhenNotRunning :
    halted.run ≠ .running ∧ faulted.run ≠ .running ∧ State.reset.run = .running := by decide

theorem witness_StepRunsTheDecodedInstruction : let s := startAt 0xFFFF [0xA9, 0x05] []
    s.run = .running ∧ decode (s.read8 s.pc) (s.read8 (s.pc + 1)) (s.read8 (s.pc + 2)) = .ldaImm 0x05 := by decide

theorem witness_StepRunsTheEncodedInstruction : let s := startAt 0xFFFE [0x4C, 0x34, 0x12] []
    (Instr.jmpAbs 0x1234).wf = true ∧ s.run = .running ∧
    ∀ k b, (encode (.jmpAbs 0x1234))[k]? = some b → s.read8 (s.pc + BitVec.ofNat 16 k) = b := by
  refine ⟨rfl, rfl, fun k b h => ?_⟩
  match k with
  | 0 => exact Option.some.inj h
  | 1 => exact Option.some.inj h
  | 2 => exact Option.some.inj h
  | k + 3 => cases h

theorem witness_StepCallReturnsCyclesFaultOrRefusal : halted.run ≠ .running ∧
    (startAt 0x8000 [0xEA] []).run = .running ∧ lookup ((startAt 0x8000 [0xEA] []).read8 0x8000) = some rowNop ∧
    (startAt 0x8000 [0xFF] []).run = .running ∧ lookup ((startAt 0x8000 [0xFF] []).read8 0x8000) = none := by decide

/-- Two steps reach a halt and a fault, one step reaches neither, and zero steps reach the state itself. -/
theorem witness_RunUntilHaltStopsWhereTheRunDoes :
    (∃ t, core.run 2 (startAt 0x8000 [0xEA, 0x00] []) = .next t ∧ t.run = .halted ∧
      (startAt 0x8000 [0xEA, 0x00] []).runUntilHalt 2 = (.halted, t)) ∧
    (∃ t, core.run 2 (startAt 0x8000 [0xEA, 0x02] []) = .next t ∧ t.run = .faulted (.illegalOpcode 0x02 0x8001) ∧
      (startAt 0x8000 [0xEA, 0x02] []).runUntilHalt 2 = (.err (.illegalOpcode 0x02 0x8001), t)) ∧
    (∃ t, core.run 1 (startAt 0x8000 [0xEA, 0x00] []) = .next t ∧ t.run = .running ∧
      (startAt 0x8000 [0xEA, 0x00] []).runUntilHalt 1 = (.unfinished, t)) ∧
    State.reset.runUntilHalt 0 = (.unfinished, State.reset) ∧
    halted.run ≠ .running ∧ halted.runUntilHalt 0 = (.refused, halted) ∧ faulted.runUntilHalt 1 = (.refused, faulted) :=
  ⟨⟨_, rfl, rfl, rfl⟩, ⟨_, rfl, rfl, rfl⟩, ⟨_, rfl, rfl, rfl⟩, rfl, by decide, rfl, rfl⟩

theorem witness_DecodeOfEncodeIsTheInstruction : (Instr.staAbsx 0xFFFF).wf = true ∧ (Instr.bne 0x80).wf = true ∧
    (Instr.illegal 0xFF).wf = true := by decide

theorem witness_EncodeOfDecodeIsTheBytes : decodeBytes [0x4C, 0x00, 0x90, 0xEA] = some (.jmpAbs 0x9000, [0xEA]) ∧
    decodeBytes [0xFF] = some (.illegal 0xFF, []) := by decide

theorem witness_EveryByteIsLegalOrIllegalNeverBoth : rowNop ∈ lookup 0xEA := by decide

/-- A state whose A is to be stored at the top of memory, and one about to meet an illegal byte. -/
theorem witness_StepKeepsTheInvariant :
    Inv (startAt 0x8000 [0x8D, 0xFF, 0xFF] []) ∧ (∃ t, step (startAt 0x8000 [0x8D, 0xFF, 0xFF] []) = .next t) ∧
    Inv (startAt 0x8000 [0xFF] []) ∧ (∃ t, step (startAt 0x8000 [0xFF] []) = .next t) :=
  ⟨⟨by decide, by decide, by decide⟩, ⟨_, rfl⟩, ⟨by decide, by decide, by decide⟩, ⟨_, rfl⟩⟩

theorem witness_ResetHasTheInvariant : Memory.wf [(0, 0x01), (65535, 0xFF)] = true := by decide

theorem witness_HostOperationsKeepTheInvariant :
    Inv (startAt 0x8000 [0xEA] []) ∧ ∃ t, (startAt 0x8000 [0xEA] []).load 0xFFFF [0x01] = .ok t :=
  ⟨⟨by decide, by decide, by decide⟩, _, rfl⟩

/-- One byte at 0xFFFF is the last that fits; with two the bound is passed; addresses on both sides of a range. -/
theorem witness_LoadWritesAllOrNothing :
    (0xFFFF : Word).toNat + [(0x07 : Byte), 0x02].length > 0x10000 ∧
    (0xFFFF : Word).toNat + [(0x07 : Byte)].length ≤ 0x10000 ∧ [(0x07 : Byte)][0]? = some 0x07 ∧
    (0xFFFE : Word).toNat < (0xFFFF : Word).toNat ∧ (0x0000 : Word).toNat + [(0x07 : Byte)].length ≤ (0x0001 : Word).toNat := by
  decide

theorem witness_EveryInitialMemoryIsAMemory : let m : Memory := [(0, 0x01), (65535, 0xFF)]
    let m' := Memory.write (Memory.write [] 65535 0xFF) 0 0x01
    m.wf = true ∧ m'.wf = true ∧ ∀ a : Word, m.read a.toNat = m'.read a.toNat :=
  ⟨by decide, by decide, fun _ => rfl⟩

theorem witness_Write8SetsOneByteAndNothingElse : (0x0000 : Word) ≠ 0xFFFF := by decide

theorem witness_FlagHelpersWriteOnlyTheirFlags : Flag.c ≠ .u ∧ Flag.u ≠ .c ∧ Flag.v ≠ .z ∧ Flag.v ≠ .n := by decide

theorem witness_StackImagesOfP : Flag.n ≠ .b ∧ Flag.n ≠ .u ∧ statusOk 0x24 = true ∧ statusOk 0xEF = true := by decide

theorem witness_CompareIsSubtractionWithoutBorrowIn : Flag.v ≠ .c ∧ Flag.v ≠ .z ∧ Flag.v ≠ .n := by decide

theorem witness_BrkHaltsOrEntersTheHandler :
    State.reset.brkHandler = false ∧ { State.reset with brkHandler := true }.brkHandler = true := by decide

theorem witness_StackPrimitivesStayInPageOne : (0x0200 : Word) ≠ stackAddr 0xFF ∧ (0x00FF : Word) ≠ stackAddr 0x00 := by
  decide

theorem witness_IllegalBytesRaiseIllegalOpcode : (startAt 0x8000 [0x02] []).run = .running ∧
    (startAt 0x8000 [0x02] []).read8 0x8000 ∈ illegalOpcodes ∧ (startAt 0xFFFF [0xFF] []).run = .running ∧
    (startAt 0xFFFF [0xFF] []).read8 0xFFFF ∈ illegalOpcodes := by decide

/-- A shift of memory is no destination of a register; BRK that halts moves no SP. -/
theorem witness_RegistersChangeOnlyAsDestinations : (∃ t, exec (.aslAbs 0x0000) State.reset = .next t) ∧
    writesA (.aslAbs 0x0000) = false ∧ writesX (.aslAbs 0x0000) = false ∧ writesY (.aslAbs 0x0000) = false ∧
    (∃ t, exec .brk State.reset = .next t) ∧ writesSP .brk State.reset = false :=
  ⟨⟨_, rfl⟩, rfl, rfl, rfl, ⟨_, rfl⟩, rfl⟩

theorem witness_FlagsChangeOnlyWhereNamed : (∃ t, exec (.ldaImm 0x00) State.reset = .next t) ∧
    Flag.c ∉ flagsWritten (.ldaImm 0x00) State.reset ∧ (∃ t, exec .brk State.reset = .next t) ∧
    Flag.i ∉ flagsWritten .brk State.reset ∧ (∃ t, exec (.illegal 0x02) State.reset = .next t) ∧
    Flag.n ∉ flagsWritten (.illegal 0x02) State.reset :=
  ⟨⟨_, rfl⟩, by decide, ⟨_, rfl⟩, by decide, ⟨_, rfl⟩, by decide⟩

theorem witness_MemoryChangesOnlyAtTheStoredAddresses : (∃ t, exec (.staAbs 0xFFFF) State.reset = .next t) ∧
    (0x0000 : Word) ∉ storedAt (.staAbs 0xFFFF) State.reset ∧ (∃ t, exec (.jsr 0x9000) State.reset = .next t) ∧
    (0x01FB : Word) ∉ storedAt (.jsr 0x9000) State.reset ∧ (∃ t, exec (.cmpAbs 0xFFFF) State.reset = .next t) ∧
    (0xFFFF : Word) ∉ storedAt (.cmpAbs 0xFFFF) State.reset :=
  ⟨⟨_, rfl⟩, by decide, ⟨_, rfl⟩, by decide, ⟨_, rfl⟩, by decide⟩

theorem witness_OnlyBrkAndIllegalBytesLeaveRunning :
    (Instr.nop ≠ .brk ∧ ∀ op, Instr.nop ≠ .illegal op) ∧
    ({ State.reset with brkHandler := true }.brkHandler = true ∧ ∀ op, Instr.brk ≠ .illegal op) :=
  ⟨⟨by decide, fun _ h => by cases h⟩, rfl, fun _ h => by cases h⟩

/-- A form with the page-cross penalty, and a branch that is taken. -/
theorem witness_LegalStepsAdvanceAndCount :
    (Instr.ldaAbsx 0x12F0).row = some rowLdaAbsx ∧ (∃ t, exec (.ldaAbsx 0x12F0) State.reset = .next t) ∧
    mayRedirect (.ldaAbsx 0x12F0) State.reset = false ∧ isBranch (.ldaAbsx 0x12F0) = false ∧
    (Instr.bne 0x10).row = some rowBne ∧ isBranch (.bne 0x10) = true ∧
    (∃ t, exec (.bne 0x10) State.reset = .next t ∧ t.pc ≠ State.reset.pc + 2) :=
  ⟨rfl, ⟨_, rfl⟩, rfl, rfl, rfl, rfl, _, rfl, by decide⟩

theorem witness_DecimalModeIsInert : touchesD (.adcImm 0x01) State.reset = false ∧
    (∃ t, exec (.adcImm 0x01) State.reset = .next t) ∧ touchesD .brk State.reset = false ∧
    (∃ t, exec .brk State.reset = .next t) := ⟨rfl, ⟨_, rfl⟩, rfl, ⟨_, rfl⟩⟩

theorem witness_PlpUndoesPhp : statusOk State.reset.p = true := by decide

theorem witness_RtiUndoesTheTrapEntry : { State.reset with brkHandler := true }.brkHandler = true ∧
    statusOk { State.reset with brkHandler := true }.p = true := by decide

end Sys2Proof.Tests
end

section
/-! The frame of the status register, 10_state.md R20: what each flag helper of R86 to R91 leaves of P, then every rule
against the flag summary of 10_state.md section 5, kind by kind. -/

namespace Sys2Proof.Machine

/-! ## What the flag helpers leave -/

theorem Flag.bit_lt (f : Flag) : f.bit < 8 := by
  cases f <;> decide

/-- A flag's mask has that flag's bit and no other. -/
theorem Flag.getFlag_mask (f g : Flag) : getFlag g.mask f = decide (f = g) := by
  cases f <;> cases g <;> rfl

/-- Setting one flag (R86) leaves every other. -/
@[simp] theorem getFlag_setFlag_of_ne {f g : Flag} (h : f ≠ g) (p : Byte) (on : Bool) :
    getFlag (setFlag p g on) f = getFlag p f := by
  have hm : g.mask[f.bit]'f.bit_lt = false := (Flag.getFlag_mask f g).trans (decide_eq_false h)
  have hset : ((p &&& ~~~ g.mask) ||| (if on then g.mask else 0)).getLsbD f.bit = p.getLsbD f.bit := by
    cases on <;> simp [hm, f.bit_lt]
  unfold setFlag getFlag
  split
  · rfl
  · exact hset

/-- `SetZN` (R87) leaves every flag but Z and N. -/
@[simp] theorem getFlag_setZN_of_ne {f : Flag} (hz : f ≠ .z) (hn : f ≠ .n) (p v : Byte) :
    getFlag (setZN p v) f = getFlag p f := by
  simp [setZN, hz, hn]

/-- `Compare` (R91) leaves every flag but C, Z and N. -/
@[simp] theorem getFlag_compareFlags_of_ne {f : Flag} (hc : f ≠ .c) (hz : f ≠ .z) (hn : f ≠ .n) (p r m : Byte) :
    getFlag (compareFlags p r m) f = getFlag p f := by
  simp [compareFlags, hc, hz, hn]

/-- BIT (R110) leaves every flag but N, V and Z. -/
@[simp] theorem getFlag_bitFlags_of_ne {f : Flag} (hz : f ≠ .z) (hn : f ≠ .n) (hv : f ≠ .v) (p a m : Byte) :
    getFlag (bitFlags p a m) f = getFlag p f := by
  simp [bitFlags, hz, hn, hv]

/-- Writing a result back (R84) leaves P. -/
theorem writeBack_p {res : Resolved} {v : Byte} {s t : State} (h : writeBack res v s = some t) : t.p = s.p := by
  obtain ⟨ea, -, rfl⟩ | ⟨-, rfl⟩ := writeBack_some.mp h
  · rfl
  · rfl

/-! ## The rules -/

/-- A branch (R121 to R129), taken or not, leaves P. -/
theorem branchIf_p {cond : Bool} {res : Resolved} {pcross : Bool} {s : State} {e : Effect}
    (h : branchIf cond res pcross s = some e) : e.state.p = s.p := by
  obtain ⟨target, -, rfl⟩ := branchIf_some.mp h
  cases cond <;> rfl

/-- The rule of an instruction's kind leaves every flag the summary does not name for the instruction. The cases are
grouped by the shape of the rule: it reads an operand, writes a result back, or does neither; it pulls P, may enter
the BRK handler, or names no flag. -/
theorem rule_keeps_unnamed_flag {i : Instr} {r : Row} (hr : i.row = some r) {res : Resolved} {pcross : Bool}
    {s : State} {e : Effect} (he : ruleOf r.kind res pcross s = some e) {f : Flag} (hf : f ∉ flagsWritten i s) :
    getFlag e.state.p f = getFlag s.p f := by
  simp only [flagsWritten, isKind_of_row hr] at hf
  generalize r.kind = k at he hf
  cases k with
  | lda | ldx | ldy | adc | sbc | cmp | cpx | cpy | and | ora | eor | bit =>
    simp only [ruleOf, ruleLda_some, ruleLdx_some, ruleLdy_some, ruleAdc_some, ruleSbc_some, ruleCmp_some,
      ruleCpx_some, ruleCpy_some, ruleAnd_some, ruleOra_some, ruleEor_some, ruleBit_some] at he
    obtain ⟨m, -, rfl⟩ := he
    simp at hf
    simp [hf]
  | inc | dec | asl | lsr | rol | ror =>
    simp only [ruleOf, ruleInc_some, ruleDec_some, ruleAsl_some, ruleLsr_some, ruleRol_some, ruleRor_some] at he
    obtain ⟨m, t, -, ht, rfl⟩ := he
    simp at hf
    simp [hf, writeBack_p ht]
  | inx | iny | dex | dey | tax | tay | txa | tya | tsx | pla | clc | sec | cli | sei | cld | sed | clv =>
    simp only [ruleOf, ruleInx_some, ruleIny_some, ruleDex_some, ruleDey_some, ruleTax_some, ruleTay_some,
      ruleTxa_some, ruleTya_some, ruleTsx_some, rulePla_some, ruleClc_some, ruleSec_some, ruleCli_some,
      ruleSei_some, ruleCld_some, ruleSed_some, ruleClv_some] at he
    subst he
    simp at hf
    simp [hf]
  | plp | rti => -- the summary names all eight flags
    cases f <;> simp at hf
  | brk =>
    rw [ruleOf, ruleBrk_some] at he
    subst he
    cases hb : s.brkHandler with
    | true =>
      simp [hb] at hf
      simp [hf]
    | false => rfl
  | bcc | bcs | beq | bne | bmi | bpl | bvc | bvs => rw [branchIf_p he]
  | sta | stx | sty | jmp | jsr =>
    simp only [ruleOf, ruleSta_some, ruleStx_some, ruleSty_some, ruleJmp_some, ruleJsr_some] at he
    obtain ⟨ea, -, rfl⟩ := he
    simp
  | rts | nop | pha | php | txs =>
    simp only [ruleOf, ruleRts_some, ruleNop_some, rulePha_some, rulePhp_some, ruleTxs_some] at he
    subst he
    simp

/-! ## The frame -/

/-- Settles O52: a legal instruction commits its rule's effect, whose status `rule_keeps_unnamed_flag` bounds; raising
a fault leaves P. -/
theorem flagsChangeOnlyWhereNamed : Obligations.FlagsChangeOnlyWhereNamed := by
  intro i s t f h hf
  cases hr : i.row with
  | some r =>
    obtain ⟨e, he, hexec⟩ := exec_row_commits hr s
    cases hexec.symm.trans h
    exact rule_keeps_unnamed_flag hr he hf
  | none =>
    obtain ⟨op, rfl⟩ := eq_illegal_of_row_none hr
    cases h
    rfl

end Sys2Proof.Machine
end

section
/-! The access primitives of 20_memory.md: what a byte write (R36) changes and what it leaves. -/

namespace Sys2Proof.Machine

/-- Settles O17: the written byte and the other bytes by the memory laws `State.read8_write8_same` and
`State.read8_write8_other`; the fields but memory because `write8` is an update of the memory field alone. -/
theorem write8SetsOneByteAndNothingElse : Obligations.Write8SetsOneByteAndNothingElse := by
  intro s a v
  refine ⟨State.read8_write8_same s a v, ?others, ?fields⟩
  case others => exact fun x hx => State.read8_write8_other s v hx
  case fields => rfl

end Sys2Proof.Machine
end

section
/-! The addressing resolver of 30_encoding.md: the zero-page pointer read (R64), the address and the page-cross flag of
the zero-page and indexed modes (R60 to R66), and the branch target (R70). -/

namespace Sys2Proof.Machine

/-! ## Index sums -/

/-- An 8-bit index sum, as R61 and R65 name it, lies in the zero page. -/
theorem toNat_zext16_add (z i : Byte) : (zext16 (z + i)).toNat = (z.toNat + i.toNat) % 256 := by
  rw [toNat_zext16, BitVec.toNat_add]

theorem zext16_lt (b : Byte) : zext16 b < 0x0100 := by
  rw [BitVec.lt_def, toNat_zext16]
  exact b.isLt

/-- A 16-bit index sum (R63, R66) wraps at the end of the address space. -/
theorem toNat_add_zext16 (base : Word) (i : Byte) :
    (base + zext16 i).toNat = (base.toNat + i.toNat) % 65536 := by
  rw [BitVec.toNat_add, toNat_zext16]

/-! ## The zero-page pointer read -/

theorem State.toNat_zpRead16 (s : State) (q : Byte) :
    (s.zpRead16 q).toNat = 256 * (s.read8 (zext16 (q + 1))).toNat + (s.read8 (zext16 q)).toNat :=
  toNat_wordOf _ _

/-- Settles O19: the two addresses are the zero extensions of `q + 1` and `q`; at `q = 0xFF` the first one wraps. -/
theorem zpRead16NeverLeavesTheZeroPage : Obligations.ZpRead16NeverLeavesTheZeroPage := by
  intro s q
  refine ⟨⟨zext16 (q + 1), zext16 q, toNat_zext16_add q 1, toNat_zext16 q, s.toNat_zpRead16 q⟩, ?boundary⟩
  case boundary =>
    have hi : zext16 (0xFF + 1) = 0x0000 := by decide
    have lo : zext16 0xFF = 0x00FF := by decide
    rw [s.toNat_zpRead16, hi, lo]

/-! ## The zero-page and indexed modes -/

/-- Settles O21: the three addresses are zero extensions, of the operand and of its 8-bit sums with X and Y. -/
theorem zeroPageModesStayBelow256 : Obligations.ZeroPageModesStayBelow256 := by
  intro s z
  refine ⟨⟨eaZeroPage z, rfl, ?zp⟩, ⟨eaZeroPageX z s, rfl, ?zpx, ?ltx⟩, ⟨eaZeroPageY z s, rfl, ?zpy, ?lty⟩⟩
  case zp => exact toNat_zext16 z
  case zpx => exact toNat_zext16_add z s.x
  case ltx => exact zext16_lt _
  case zpy => exact toNat_zext16_add z s.y
  case lty => exact zext16_lt _

/-- What R63 and R66 have in common: a base plus a zero-extended index at 16 bits, with the page-cross flag of R58. -/
theorem indexed_result (base : Word) (i : Byte) :
    ∃ ea, ((Resolved.addr (base + zext16 i), pageCross base (base + zext16 i)) : Resolved × Bool) =
        (.addr ea, decide (ea.toNat / 256 ≠ base.toNat / 256)) ∧
      ea.toNat = (base.toNat + i.toNat) % 65536 :=
  ⟨base + zext16 i, by rw [pageCross_eq], toNat_add_zext16 base i⟩

/-- Settles O22: AbsoluteX, AbsoluteY and IndirectY are one indexed sum with three bases; IndirectX is its pointer
read. -/
theorem absoluteIndexedAndIndirectModes : Obligations.AbsoluteIndexedAndIndirectModes := by
  intro s a z
  refine ⟨?absx, ?absy, ?indx, ?indy⟩
  case absx => exact indexed_result a s.x
  case absy => exact indexed_result a s.y
  case indx => rfl
  case indy => exact indexed_result (s.zpRead16 z) s.y

/-! ## Relative -/

/-- A sign-extended byte (R11) keeps its signed value modulo 65536, so adding it to a word adds that value. -/
theorem toNat_add_sext16 (base : Word) (d : Byte) :
    ((base + sext16 d).toNat : Int) = ((base.toNat : Int) + d.toInt) % 65536 := by
  have hd : ((sext16 d).toNat : Int) = d.toInt % 65536 := by
    rw [sext16, BitVec.signExtend, BitVec.toNat_ofInt]
    omega
  rw [BitVec.toNat_add]
  omega

theorem toNat_branchTarget (d : Byte) (s : State) :
    ((branchTarget d s).toNat : Int) = ((s.pc.toNat : Int) + 2 + d.toInt) % 65536 := by
  have next : (s.pc + 2).toNat = (s.pc.toNat + 2) % 65536 := BitVec.toNat_add ..
  rw [branchTarget, toNat_add_sext16, next]
  omega

/-- Settles O24: the target by `toNat_branchTarget`, the flag by R58; the two boundary displacements extend to 0
and to -2. -/
theorem relativeTargetCountsFromTheNextInstruction : Obligations.RelativeTargetCountsFromTheNextInstruction := by
  intro s d
  refine ⟨⟨branchTarget d s, ?result, toNat_branchTarget d s⟩, ?zero, ?minusTwo⟩
  case result => rw [resolve, pageCross_eq]
  case zero =>
    have hd : sext16 0x00 = 0 := by decide
    rw [branchTarget, hd, add_zero]
  case minusTwo =>
    have hd : sext16 0xFE = -2 := by decide
    rw [branchTarget, hd, ← BitVec.sub_eq_add_neg, BitVec.add_sub_cancel]

end Sys2Proof.Machine
end

section
/-! The flag helpers of 40_dispatch.md section 3: what a flag reads after `set` (R86) and `SetZN` (R87). That they
leave every other flag is `getFlag_setFlag_of_ne` and `getFlag_setZN_of_ne`. -/

namespace Sys2Proof.Machine

/-! ## What a flag helper sets -/

/-- `set` on U does nothing (R86). -/
@[simp] theorem setFlag_u (p : Byte) (on : Bool) : setFlag p .u on = p := rfl

/-- `set` (R86) clears the flag's bit and puts the new value there, for every flag but U. -/
theorem setFlag_of_ne_u {f : Flag} (h : f ≠ .u) (p : Byte) (on : Bool) :
    setFlag p f on = (p &&& ~~~ f.mask) ||| (if on then f.mask else 0) := by
  cases f with
  | u => exact absurd rfl h
  | c | z | i | d | b | v | n => rfl

@[simp] theorem getFlag_setFlag_same {f : Flag} (h : f ≠ .u) (p : Byte) (on : Bool) :
    getFlag (setFlag p f on) f = on := by
  have hm : f.mask[f.bit]'f.bit_lt = true := (Flag.getFlag_mask f f).trans (decide_eq_true rfl)
  rw [setFlag_of_ne_u h, getFlag]
  cases on <;> simp [hm, f.bit_lt]

@[simp] theorem getFlag_setZN_z (p v : Byte) : getFlag (setZN p v) .z = (v == 0) := by
  simp [setZN]

@[simp] theorem getFlag_setZN_n (p v : Byte) : getFlag (setZN p v) .n = v.msb := by
  simp [setZN]

/-- Settles O25: the flag set reads back, the other flags by the frame lemmas of `set` and `SetZN`; Z and N as numbers
by what a zero byte and bit 7 are. -/
theorem flagHelpersWriteOnlyTheirFlags : Obligations.FlagHelpersWriteOnlyTheirFlags := by
  refine ⟨fun p f on => ⟨?same, ?others, setFlag_u p on⟩, fun p v => ⟨?z, ?n, ?rest⟩⟩
  case same => exact fun hu => getFlag_setFlag_same hu p on
  case others => exact fun g hg => getFlag_setFlag_of_ne hg p on
  case z => exact (getFlag_setZN_z p v).trans ((beq_eq_decide v 0).trans (decide_eq_decide.mpr BitVec.toNat_eq))
  case n => rw [getFlag_setZN_n, BitVec.msb_eq_decide]
  case rest => exact fun g hz hn => getFlag_setZN_of_ne hz hn p v

end Sys2Proof.Machine
end

section
/-! The arithmetic of the ALU, 40_dispatch.md section 4: `AddC` (R89) adds exactly, and `SubC` (R90) is that addition with
the complement. -/

namespace Sys2Proof.Machine

/-! ## A byte as a signed number -/

/-- Bit 7 of a byte (R10) says in which half of the range it lies, and so what it is as a signed number. -/
theorem byte_sign_cases (v : Byte) :
    (v.msb = false ∧ v.toNat < 128 ∧ v.toInt = v.toNat) ∨
    (v.msb = true ∧ 128 ≤ v.toNat ∧ v.toInt = (v.toNat : Int) - 256) := by
  have half : v.msb = decide (128 ≤ v.toNat) := BitVec.msb_eq_decide v
  have value : v.toInt = if v.msb then (v.toNat : Int) - 256 else v.toNat := BitVec.toInt_eq_msb_cond v
  cases h : v.msb with
  | false => exact .inl ⟨rfl, by simpa [h] using half, by simpa [h] using value⟩
  | true => exact .inr ⟨rfl, by simpa [h] using half, by simpa [h] using value⟩

theorem toNat_not_byte (m : Byte) : (~~~ m).toNat = 255 - m.toNat := BitVec.toNat_not

theorem toInt_not_byte (m : Byte) : (~~~ m).toInt = - m.toInt - 1 := by
  have hm := byte_sign_cases m
  have hc := byte_sign_cases (~~~ m)
  have := toNat_not_byte m
  omega

/-! ## AddC -/

/-- Result and carry out of `AddC` (R89) are the low byte and bit 8 of the sum. -/
theorem addC_exact (a b : Byte) (cin : Bool) :
    (addC a b cin).1.toNat + 256 * (addC a b cin).2.1.toNat = a.toNat + b.toNat + cin.toNat := by
  have sum_lt : a.toNat + b.toNat + cin.toNat < 512 := by
    have := a.isLt
    have := b.isLt
    have := cin.toNat_lt
    omega
  simp only [addC, BitVec.toNat_ofNat]
  by_cases carry : 256 ≤ a.toNat + b.toNat + cin.toNat
  · rw [decide_eq_true carry, Bool.toNat_true]
    omega
  · rw [decide_eq_false carry, Bool.toNat_false]
    omega

theorem addC_overflow (a b : Byte) (cin : Bool) :
    (addC a b cin).2.2 = (a.msb == b.msb && (addC a b cin).1.msb != a.msb) := rfl

/-- The overflow of `AddC` (R89) as one bit: the result's sign differs from both operands' signs. -/
theorem addC_overflow_eq_msb (a b : Byte) (cin : Bool) :
    (addC a b cin).2.2 = ((a ^^^ (addC a b cin).1) &&& (b ^^^ (addC a b cin).1)).msb := by
  rw [addC_overflow, BitVec.msb_and, BitVec.msb_xor, BitVec.msb_xor]
  cases a.msb <;> cases b.msb <;> cases (addC a b cin).1.msb <;> rfl

/-- The overflow of `AddC` (R89) is two's-complement overflow: operands of one sign overflow exactly when the result
falls in the other half of the byte range, operands of two signs never do. -/
theorem addC_overflow_iff (a b : Byte) (cin : Bool) :
    (addC a b cin).2.2 = true ↔
      a.toInt + b.toInt + cin.toNat < -128 ∨ 127 < a.toInt + b.toInt + cin.toNat := by
  have sum := addC_exact a b cin
  have hin := cin.toNat_lt
  have hout := (addC a b cin).2.1.toNat_lt
  rw [addC_overflow]
  obtain ⟨ha, _, _⟩ | ⟨ha, _, _⟩ := byte_sign_cases a
  · obtain ⟨hb, _, _⟩ | ⟨hb, _, _⟩ := byte_sign_cases b
    · obtain ⟨hr, _, _⟩ | ⟨hr, _, _⟩ := byte_sign_cases (addC a b cin).1 <;> simp [ha, hb, hr] <;> omega
    · simp [ha, hb]
      omega
  · obtain ⟨hb, _, _⟩ | ⟨hb, _, _⟩ := byte_sign_cases b
    · simp [ha, hb]
      omega
    · obtain ⟨hr, _, _⟩ | ⟨hr, _, _⟩ := byte_sign_cases (addC a b cin).1 <;> simp [ha, hb, hr] <;> omega

/-- Settles O27: the exact sum, the definition's own overflow formula, its one-bit form and its meaning over the signed
values. -/
theorem addCIsExactAdditionWithCarry : Obligations.AddCIsExactAdditionWithCarry := fun a b cin =>
  ⟨addC_exact a b cin, addC_overflow a b cin, addC_overflow_eq_msb a b cin, addC_overflow_iff a b cin⟩

/-! ## SubC -/

/-- `SubC` (R90) as an exact equation of naturals: the complement adds `255 - m`, the carry in the missing 1. -/
theorem subC_exact (a m : Byte) (c : Bool) :
    (subC a m c).1.toNat + 256 * (subC a m c).2.1.toNat + m.toNat = a.toNat + 255 + c.toNat := by
  have sum := addC_exact a (~~~ m) c
  rw [toNat_not_byte] at sum
  have := m.isLt
  rw [subC]
  omega

theorem subC_result (a m : Byte) (c : Bool) :
    (subC a m c).1 = if c then a - m else a - m - 1 := by
  have diff := subC_exact a m c
  have hr := (subC a m c).1.isLt
  apply BitVec.eq_of_toNat_eq
  cases c <;> simp [BitVec.toNat_sub] at diff ⊢ <;> omega

/-- Carry out of `SubC` (R90) is "no borrow". -/
theorem subC_carry (a m : Byte) (c : Bool) :
    (subC a m c).2.1 = decide (m.toNat + (1 - c.toNat) ≤ a.toNat) := by
  have diff := subC_exact a m c
  have hr := (subC a m c).1.isLt
  have hc := c.toNat_lt
  cases hout : (subC a m c).2.1 with
  | true =>
    rw [hout, Bool.toNat_true] at diff
    exact (decide_eq_true (by omega)).symm
  | false =>
    rw [hout, Bool.toNat_false] at diff
    exact (decide_eq_false (by omega)).symm

/-- The overflow of `SubC` (R90) is that of `AddC` at the complement, whose signed value is `-m - 1`. -/
theorem subC_overflow_iff (a m : Byte) (c : Bool) :
    (subC a m c).2.2 = true ↔
      a.toInt - m.toInt - (1 - c.toNat) < -128 ∨ 127 < a.toInt - m.toInt - (1 - c.toNat) := by
  have sum : a.toInt + (~~~ m).toInt + c.toNat = a.toInt - m.toInt - (1 - c.toNat) := by
    rw [toInt_not_byte]
    ring
  rw [subC, addC_overflow_iff, sum]

/-- Settles O28: `SubC` is `AddC` at the complement by definition; result and carry out follow from the exact equation
`subC_exact`, the overflow from that of `AddC`. -/
theorem subCSubtractsWithNotBorrow : Obligations.SubCSubtractsWithNotBorrow := fun a m c =>
  ⟨rfl, subC_result a m c, subC_carry a m c, subC_overflow_iff a m c⟩

end Sys2Proof.Machine
end

section
/-! The shifts and rotates of 40_dispatch.md R93 as arithmetic: each moves the 9 bits of carry and byte by one place. -/

namespace Sys2Proof.Machine

/-! ## The bit shifted out and the bit shifted in -/

theorem toNat_bit7 (v : Byte) : (v.getLsbD 7).toNat = v.toNat / 128 := by
  have := v.isLt
  rw [← BitVec.testBit_toNat, Nat.toNat_testBit]
  omega

theorem toNat_bit0 (v : Byte) : (v.getLsbD 0).toNat = v.toNat % 2 := by
  rw [← BitVec.testBit_toNat, Nat.toNat_testBit, pow_zero, Nat.div_one]

theorem toNat_shiftLeft_one (v : Byte) : (v <<< 1).toNat = 2 * (v.toNat % 128) := by
  rw [BitVec.toNat_shiftLeft, Nat.shiftLeft_eq]
  omega

theorem toNat_ushiftRight_one (v : Byte) : (v >>> 1).toNat = v.toNat / 2 := by
  rw [BitVec.toNat_ushiftRight, Nat.shiftRight_one]

/-- A left shift vacates bit 0, so the carry `Rol` (R93) puts there is added. -/
theorem toNat_rol (v : Byte) (c : Bool) : (rol v c).1.toNat = 2 * (v.toNat % 128) + c.toNat := by
  have bit : (if c then 0x01 else 0x00 : Byte).toNat = c.toNat := by cases c <;> rfl
  rw [rol, BitVec.toNat_or, toNat_shiftLeft_one, bit]
  exact (Nat.two_pow_add_eq_or_of_lt (i := 1) c.toNat_lt _).symm

/-- A right shift vacates bit 7, so the carry `Ror` (R93) puts there is added. -/
theorem toNat_ror (v : Byte) (c : Bool) : (ror v c).1.toNat = 128 * c.toNat + v.toNat / 2 := by
  have bit : (if c then 0x80 else 0x00 : Byte).toNat = 128 * c.toNat := by cases c <;> rfl
  have low : v.toNat / 2 < 2 ^ 7 := by
    have := v.isLt
    omega
  rw [ror, BitVec.toNat_or, toNat_ushiftRight_one, bit, Nat.or_comm]
  exact (Nat.two_pow_add_eq_or_of_lt low _).symm

/-! ## The nine bits -/

/-- Settles O30: in each case the carry out is the bit shifted out and the result is the remaining bits moved by one. -/
theorem shiftsAndRotatesMoveOneBit : Obligations.ShiftsAndRotatesMoveOneBit := by
  intro v c
  have aslCarry : (asl v).2.toNat = v.toNat / 128 := toNat_bit7 v
  have rolCarry : (rol v c).2.toNat = v.toNat / 128 := toNat_bit7 v
  have lsrCarry : (lsr v).2.toNat = v.toNat % 2 := toNat_bit0 v
  have rorCarry : (ror v c).2.toNat = v.toNat % 2 := toNat_bit0 v
  have aslResult : (asl v).1.toNat = 2 * (v.toNat % 128) := toNat_shiftLeft_one v
  have lsrResult : (lsr v).1.toNat = v.toNat / 2 := toNat_ushiftRight_one v
  have rolResult := toNat_rol v c
  have rorResult := toNat_ror v c
  refine ⟨?asl, ?lsr, ?rol, ?ror⟩ <;> omega

end Sys2Proof.Machine
end

section
/-! Completion of an instruction that does not redirect PC (40_dispatch.md R78 to R80), said once for a row; then the
loads and stores of 41_load_store.md, R95 to R100. -/

namespace Sys2Proof.Machine

/-! ## Completion of a row -/

/-- PC and the cycle counter moved on by the row's length, base cost and page-cross penalty (R79, R80). -/
def State.onwardBy (s : State) (r : Row) (pcross : Bool) : State :=
  s.onward (BitVec.ofNat 16 r.length) (r.base + (r.pageCross && pcross).toNat)

/-- An effect that left PC and the cycle counter to the later stages commits as its own state moved on. -/
theorem Effect.commit_plain {s t : State} (hpc : t.pc = s.pc) (hcycles : t.cycles = s.cycles) (r : Row)
    (pcross : Bool) : (Effect.plain t).commit r pcross s = t.onwardBy r pcross := by
  simp [Effect.commit, Effect.plain, State.onwardBy, State.onward, hpc, hcycles]

/-- A legal instruction is its row's opcode byte and its operand bytes (R55). -/
theorem encode_of_row {i : Instr} {r : Row} (hr : i.row = some r) : encode i = r.opcode :: i.operand.bytes := by
  unfold encode
  split
  · cases hr
  · rw [hr]

section
variable {i : Instr} {s t : State} {m : Byte} {ea : Word}

/-- An instruction whose rule has a plain effect runs to that effect, moved on as its row says. -/
theorem runs_of_plain {rule : Rule} (r : Row) (hr : i.row = some r) (hrule : ruleOf r.kind = rule)
    (heff : rule (resolve i.operand s).1 (resolve i.operand s).2 s = some (.plain t))
    (hpc : t.pc = s.pc) (hcycles : t.cycles = s.cycles) :
    Runs i (r.opcode :: i.operand.bytes) s (t.onwardBy r (resolve i.operand s).2) :=
  ⟨encode_of_row hr, by
    rw [exec_of_row hr, hrule, runRow, runResolved_of_some heff, Effect.commit_plain hpc hcycles]⟩

/-! ## Loads -/

/-- R95: a row of LDA whose operand (R83) is `m` takes it into A and sets Z and N. -/
theorem runs_lda (r : Row) (hr : i.row = some r) (hrule : ruleOf r.kind = ruleLda)
    (hm : operandOf (resolve i.operand s).1 s = some m) :
    Runs i (r.opcode :: i.operand.bytes) s
      (({ s with a := m, p := setZN s.p m } : State).onwardBy r (resolve i.operand s).2) :=
  runs_of_plain r hr hrule (ruleLda_some.mpr ⟨m, hm, rfl⟩) rfl rfl

/-- R96: a row of LDX whose operand (R83) is `m` takes it into X and sets Z and N. -/
theorem runs_ldx (r : Row) (hr : i.row = some r) (hrule : ruleOf r.kind = ruleLdx)
    (hm : operandOf (resolve i.operand s).1 s = some m) :
    Runs i (r.opcode :: i.operand.bytes) s
      (({ s with x := m, p := setZN s.p m } : State).onwardBy r (resolve i.operand s).2) :=
  runs_of_plain r hr hrule (ruleLdx_some.mpr ⟨m, hm, rfl⟩) rfl rfl

/-- R97: a row of LDY whose operand (R83) is `m` takes it into Y and sets Z and N. -/
theorem runs_ldy (r : Row) (hr : i.row = some r) (hrule : ruleOf r.kind = ruleLdy)
    (hm : operandOf (resolve i.operand s).1 s = some m) :
    Runs i (r.opcode :: i.operand.bytes) s
      (({ s with y := m, p := setZN s.p m } : State).onwardBy r (resolve i.operand s).2) :=
  runs_of_plain r hr hrule (ruleLdy_some.mpr ⟨m, hm, rfl⟩) rfl rfl

/-! ## Stores -/

/-- R98: a row of STA whose address (R85) is `ea` stores A there and writes no flag. -/
theorem runs_sta (r : Row) (hr : i.row = some r) (hrule : ruleOf r.kind = ruleSta)
    (hea : eaOf (resolve i.operand s).1 = some ea) :
    Runs i (r.opcode :: i.operand.bytes) s ((s.write8 ea s.a).onwardBy r (resolve i.operand s).2) :=
  runs_of_plain r hr hrule (ruleSta_some.mpr ⟨ea, hea, rfl⟩) rfl rfl

/-- R99: a row of STX whose address (R85) is `ea` stores X there and writes no flag. -/
theorem runs_stx (r : Row) (hr : i.row = some r) (hrule : ruleOf r.kind = ruleStx)
    (hea : eaOf (resolve i.operand s).1 = some ea) :
    Runs i (r.opcode :: i.operand.bytes) s ((s.write8 ea s.x).onwardBy r (resolve i.operand s).2) :=
  runs_of_plain r hr hrule (ruleStx_some.mpr ⟨ea, hea, rfl⟩) rfl rfl

/-- R100: a row of STY whose address (R85) is `ea` stores Y there and writes no flag. -/
theorem runs_sty (r : Row) (hr : i.row = some r) (hrule : ruleOf r.kind = ruleSty)
    (hea : eaOf (resolve i.operand s).1 = some ea) :
    Runs i (r.opcode :: i.operand.bytes) s ((s.write8 ea s.y).onwardBy r (resolve i.operand s).2) :=
  runs_of_plain r hr hrule (ruleSty_some.mpr ⟨ea, hea, rfl⟩) rfl rfl

end

/-! ## The forms -/

/-- Settles O31: every form is `runs_lda`, `runs_ldx` or `runs_ldy` at its row, which gives opcode, operand, length and
cost. -/
theorem loadsReplaceTheRegisterAndSetZN : Obligations.LoadsReplaceTheRegisterAndSetZN := fun _ _ _ _ =>
  ⟨runs_lda rowLdaIndx rfl rfl rfl, runs_lda rowLdaZp rfl rfl rfl, runs_lda rowLdaImm rfl rfl rfl,
    runs_lda rowLdaAbs rfl rfl rfl, runs_lda rowLdaIndy rfl rfl rfl, runs_lda rowLdaZpx rfl rfl rfl,
    runs_lda rowLdaAbsy rfl rfl rfl, runs_lda rowLdaAbsx rfl rfl rfl,
    runs_ldx rowLdxImm rfl rfl rfl, runs_ldx rowLdxZp rfl rfl rfl, runs_ldx rowLdxAbs rfl rfl rfl,
    runs_ldx rowLdxZpy rfl rfl rfl, runs_ldx rowLdxAbsy rfl rfl rfl,
    runs_ldy rowLdyImm rfl rfl rfl, runs_ldy rowLdyZp rfl rfl rfl, runs_ldy rowLdyAbs rfl rfl rfl,
    runs_ldy rowLdyZpx rfl rfl rfl, runs_ldy rowLdyAbsx rfl rfl rfl⟩

/-- Settles O32: every form is `runs_sta`, `runs_stx` or `runs_sty` at its row; no row of a store has a page-cross
penalty. -/
theorem storesWriteTheRegisterAtTheEffectiveAddress : Obligations.StoresWriteTheRegisterAtTheEffectiveAddress :=
  fun _ _ _ =>
  ⟨runs_sta rowStaIndx rfl rfl rfl, runs_sta rowStaZp rfl rfl rfl, runs_sta rowStaAbs rfl rfl rfl,
    runs_sta rowStaIndy rfl rfl rfl, runs_sta rowStaZpx rfl rfl rfl, runs_sta rowStaAbsy rfl rfl rfl,
    runs_sta rowStaAbsx rfl rfl rfl,
    runs_stx rowStxZp rfl rfl rfl, runs_stx rowStxAbs rfl rfl rfl, runs_stx rowStxZpy rfl rfl rfl,
    runs_sty rowStyZp rfl rfl rfl, runs_sty rowStyAbs rfl rfl rfl, runs_sty rowStyZpx rfl rfl rfl⟩

end Sys2Proof.Machine
end

section
/-! Completion of an instruction whose effect is a function of the operand byte it reads (40_dispatch.md R83); then the
arithmetic and the compares of 42_arithmetic_compare.md, R102 to R106. -/

namespace Sys2Proof.Machine

section
variable {i : Instr} {s : State} {m : Byte} (rule : Rule)

/-- An instruction whose rule reads an operand and turns byte `m` into the state `f m` runs to `f` of its operand, moved
on as its row says, where `f` leaves PC and the cycle counter to the later stages. -/
theorem runs_of_operand {f : Byte → State}
    (hsome : ∀ {res pcross e}, rule res pcross s = some e ↔ ∃ m, operandOf res s = some m ∧ e = .plain (f m))
    (r : Row) (hr : i.row = some r) (hrule : ruleOf r.kind = rule)
    (hm : operandOf (resolve i.operand s).1 s = some m) (hpc : (f m).pc = s.pc) (hcycles : (f m).cycles = s.cycles) :
    Runs i (r.opcode :: i.operand.bytes) s ((f m).onwardBy r (resolve i.operand s).2) :=
  runs_of_plain r hr hrule (hsome.mpr ⟨m, hm, rfl⟩) hpc hcycles

/-- R102, R103: a row whose rule computes `alu M` of its operand takes the sum into A, carry out and overflow into C and
V, and sets Z and N of the sum. -/
theorem runs_withSum {alu : Byte → Byte × Bool × Bool}
    (hsome : ∀ {res pcross e}, rule res pcross s = some e ↔
      ∃ m, operandOf res s = some m ∧ e = .plain (s.withSum (alu m)))
    (r : Row) (hr : i.row = some r) (hrule : ruleOf r.kind = rule)
    (hm : operandOf (resolve i.operand s).1 s = some m) :
    Runs i (r.opcode :: i.operand.bytes) s ((s.withSum (alu m)).onwardBy r (resolve i.operand s).2) :=
  runs_of_operand rule hsome r hr hrule hm rfl rfl

/-- R104 to R106: a row whose rule compares the byte `reg` with its operand writes P alone. -/
theorem runs_compare {reg : Byte}
    (hsome : ∀ {res pcross e}, rule res pcross s = some e ↔
      ∃ m, operandOf res s = some m ∧ e = .plain { s with p := compareFlags s.p reg m })
    (r : Row) (hr : i.row = some r) (hrule : ruleOf r.kind = rule)
    (hm : operandOf (resolve i.operand s).1 s = some m) :
    Runs i (r.opcode :: i.operand.bytes) s
      (({ s with p := compareFlags s.p reg m } : State).onwardBy r (resolve i.operand s).2) :=
  runs_of_operand rule hsome r hr hrule hm rfl rfl

end

/-! ## The forms -/

/-- Settles O33: every form is `runs_withSum` at its row, with the rule of ADC by `ruleAdc_some`; the row gives opcode,
operand, length and cost. -/
theorem adcAddsMemoryAndCarry : Obligations.AdcAddsMemoryAndCarry := fun _ _ _ _ =>
  ⟨runs_withSum ruleAdc ruleAdc_some rowAdcIndx rfl rfl rfl,
    runs_withSum ruleAdc ruleAdc_some rowAdcZp rfl rfl rfl,
    runs_withSum ruleAdc ruleAdc_some rowAdcImm rfl rfl rfl,
    runs_withSum ruleAdc ruleAdc_some rowAdcAbs rfl rfl rfl,
    runs_withSum ruleAdc ruleAdc_some rowAdcIndy rfl rfl rfl,
    runs_withSum ruleAdc ruleAdc_some rowAdcZpx rfl rfl rfl,
    runs_withSum ruleAdc ruleAdc_some rowAdcAbsy rfl rfl rfl,
    runs_withSum ruleAdc ruleAdc_some rowAdcAbsx rfl rfl rfl⟩

/-- Settles O35: every form is `runs_compare` at its row; `ruleCmp_some`, `ruleCpx_some` and `ruleCpy_some` say which
register the rule compares. -/
theorem comparesWriteOnlyFlags : Obligations.ComparesWriteOnlyFlags := fun _ _ _ _ =>
  ⟨runs_compare ruleCmp ruleCmp_some rowCmpIndx rfl rfl rfl,
    runs_compare ruleCmp ruleCmp_some rowCmpZp rfl rfl rfl,
    runs_compare ruleCmp ruleCmp_some rowCmpImm rfl rfl rfl,
    runs_compare ruleCmp ruleCmp_some rowCmpAbs rfl rfl rfl,
    runs_compare ruleCmp ruleCmp_some rowCmpIndy rfl rfl rfl,
    runs_compare ruleCmp ruleCmp_some rowCmpZpx rfl rfl rfl,
    runs_compare ruleCmp ruleCmp_some rowCmpAbsy rfl rfl rfl,
    runs_compare ruleCmp ruleCmp_some rowCmpAbsx rfl rfl rfl,
    runs_compare ruleCpx ruleCpx_some rowCpxImm rfl rfl rfl,
    runs_compare ruleCpx ruleCpx_some rowCpxZp rfl rfl rfl,
    runs_compare ruleCpx ruleCpx_some rowCpxAbs rfl rfl rfl,
    runs_compare ruleCpy ruleCpy_some rowCpyImm rfl rfl rfl,
    runs_compare ruleCpy ruleCpy_some rowCpyZp rfl rfl rfl,
    runs_compare ruleCpy ruleCpy_some rowCpyAbs rfl rfl rfl⟩

end Sys2Proof.Machine
end

section
/-! The logical instructions and the bit test of 43_logical.md, R107 to R110, as functions of the operand byte. -/

namespace Sys2Proof.Machine

/-- R107 to R109: a row whose rule combines A with its operand by `op` (R92) takes the result into A and sets Z and N
of it. -/
theorem runs_logical {i : Instr} {s : State} {m : Byte} (rule : Rule) {op : Byte → Byte → Byte}
    (hsome : ∀ {res pcross e}, rule res pcross s = some e ↔
      ∃ m, operandOf res s = some m ∧ e = .plain { s with a := op s.a m, p := setZN s.p (op s.a m) })
    (r : Row) (hr : i.row = some r) (hrule : ruleOf r.kind = rule)
    (hm : operandOf (resolve i.operand s).1 s = some m) :
    Runs i (r.opcode :: i.operand.bytes) s
      (({ s with a := op s.a m, p := setZN s.p (op s.a m) } : State).onwardBy r (resolve i.operand s).2) :=
  runs_of_operand rule hsome r hr hrule hm rfl rfl

/-! ## The forms -/

/-- Settles O36: every form is `runs_logical` at its row; `ruleAnd_some`, `ruleOra_some` and `ruleEor_some` say which
operation the rule applies. -/
theorem logicalsCombineAWithMemory : Obligations.LogicalsCombineAWithMemory := fun _ _ _ _ =>
  ⟨runs_logical ruleAnd ruleAnd_some rowAndIndx rfl rfl rfl,
    runs_logical ruleAnd ruleAnd_some rowAndZp rfl rfl rfl,
    runs_logical ruleAnd ruleAnd_some rowAndImm rfl rfl rfl,
    runs_logical ruleAnd ruleAnd_some rowAndAbs rfl rfl rfl,
    runs_logical ruleAnd ruleAnd_some rowAndIndy rfl rfl rfl,
    runs_logical ruleAnd ruleAnd_some rowAndZpx rfl rfl rfl,
    runs_logical ruleAnd ruleAnd_some rowAndAbsy rfl rfl rfl,
    runs_logical ruleAnd ruleAnd_some rowAndAbsx rfl rfl rfl,
    runs_logical ruleOra ruleOra_some rowOraIndx rfl rfl rfl,
    runs_logical ruleOra ruleOra_some rowOraZp rfl rfl rfl,
    runs_logical ruleOra ruleOra_some rowOraImm rfl rfl rfl,
    runs_logical ruleOra ruleOra_some rowOraAbs rfl rfl rfl,
    runs_logical ruleOra ruleOra_some rowOraIndy rfl rfl rfl,
    runs_logical ruleOra ruleOra_some rowOraZpx rfl rfl rfl,
    runs_logical ruleOra ruleOra_some rowOraAbsy rfl rfl rfl,
    runs_logical ruleOra ruleOra_some rowOraAbsx rfl rfl rfl,
    runs_logical ruleEor ruleEor_some rowEorIndx rfl rfl rfl,
    runs_logical ruleEor ruleEor_some rowEorZp rfl rfl rfl,
    runs_logical ruleEor ruleEor_some rowEorImm rfl rfl rfl,
    runs_logical ruleEor ruleEor_some rowEorAbs rfl rfl rfl,
    runs_logical ruleEor ruleEor_some rowEorIndy rfl rfl rfl,
    runs_logical ruleEor ruleEor_some rowEorZpx rfl rfl rfl,
    runs_logical ruleEor ruleEor_some rowEorAbsy rfl rfl rfl,
    runs_logical ruleEor ruleEor_some rowEorAbsx rfl rfl rfl⟩

/-- Settles O37: both forms write P alone, as `ruleBit_some` says, and `bitFlags` is the status the statement writes
out. -/
theorem bitTestsMemoryAgainstA : Obligations.BitTestsMemoryAgainstA := fun _ _ _ =>
  ⟨runs_of_operand ruleBit ruleBit_some rowBitZp rfl rfl rfl rfl rfl,
    runs_of_operand ruleBit ruleBit_some rowBitAbs rfl rfl rfl rfl rfl⟩

end Sys2Proof.Machine
end

section
/-! Completion of an instruction that writes its result back where it read its operand (40_dispatch.md R84); then the
shifts and rotates of 44_shift_rotate.md, R111 to R114. -/

namespace Sys2Proof.Machine

section
variable {i : Instr} {s : State} (rule : Rule)

/-- An instruction whose rule reads an operand `m`, writes `result m` back over it and finishes with `finish m` runs to
that state, moved on as its row says, where `finish m` leaves PC and the cycle counter to the later stages. -/
theorem runs_of_writeBack {result : Byte → Byte} {finish : Byte → State → State}
    (hsome : ∀ {res pcross e}, rule res pcross s = some e ↔
      ∃ m t, operandOf res s = some m ∧ writeBack res (result m) s = some t ∧ e = .plain (finish m t))
    (r : Row) (hr : i.row = some r) (hrule : ruleOf r.kind = rule) {m : Byte} {t : State}
    (hm : operandOf (resolve i.operand s).1 s = some m) (ht : writeBack (resolve i.operand s).1 (result m) s = some t)
    (hpc : (finish m t).pc = s.pc) (hcycles : (finish m t).cycles = s.cycles) :
    Runs i (r.opcode :: i.operand.bytes) s ((finish m t).onwardBy r (resolve i.operand s).2) :=
  runs_of_plain r hr hrule (hsome.mpr ⟨m, t, hm, ht, rfl⟩) hpc hcycles

/-! ## Shifts and rotates -/

variable {shift : Byte → Byte × Bool}
  (hsome : ∀ {res pcross e}, rule res pcross s = some e ↔
    ∃ m t, operandOf res s = some m ∧ writeBack res (shift m).1 s = some t ∧
      e = .plain { t with p := setZN (setFlag t.p .c (shift m).2) (shift m).1 })
  (r : Row) (hr : i.row = some r) (hrule : ruleOf r.kind = rule)
include hsome hr hrule

/-- R111 to R114: a row whose rule shifts its operand and which addresses memory replaces the byte there, takes the bit
shifted out into C and sets Z and N of the result. -/
theorem runs_shift_memory {ea : Word} (hres : (resolve i.operand s).1 = .addr ea) :
    Runs i (r.opcode :: i.operand.bytes) s
      (({ s.write8 ea (shift (s.read8 ea)).1 with
          p := setZN (setFlag s.p .c (shift (s.read8 ea)).2) (shift (s.read8 ea)).1 } : State).onwardBy r
        (resolve i.operand s).2) :=
  runs_of_writeBack rule hsome r hr hrule (by rw [hres, operandOf_addr]) (by rw [hres, writeBack_addr]) rfl rfl

/-- R111 to R114: a row whose rule shifts its operand and which addresses the accumulator replaces A, takes the bit
shifted out into C and sets Z and N of the result. -/
theorem runs_shift_accumulator (hres : (resolve i.operand s).1 = .accumulator) :
    Runs i (r.opcode :: i.operand.bytes) s
      (({ s with a := (shift s.a).1, p := setZN (setFlag s.p .c (shift s.a).2) (shift s.a).1 } : State).onwardBy r
        (resolve i.operand s).2) :=
  runs_of_writeBack rule hsome r hr hrule (t := { s with a := (shift s.a).1 })
    (by rw [hres, operandOf_accumulator]) (by rw [hres, writeBack_accumulator]) rfl rfl

end

/-! ## The forms -/

/-- Settles O38: every form is `runs_shift_memory` or `runs_shift_accumulator` at its row; `ruleAsl_some`,
`ruleLsr_some`, `ruleRol_some` and `ruleRor_some` say which bits the rule moves, and no row of a shift has a page-cross
penalty. -/
theorem shiftsWriteBackAndSetCarry : Obligations.ShiftsWriteBackAndSetCarry := fun _ _ _ =>
  ⟨runs_shift_memory ruleAsl ruleAsl_some rowAslZp rfl rfl rfl,
    runs_shift_accumulator ruleAsl ruleAsl_some rowAslAcc rfl rfl rfl,
    runs_shift_memory ruleAsl ruleAsl_some rowAslAbs rfl rfl rfl,
    runs_shift_memory ruleAsl ruleAsl_some rowAslZpx rfl rfl rfl,
    runs_shift_memory ruleAsl ruleAsl_some rowAslAbsx rfl rfl rfl,
    runs_shift_memory ruleLsr ruleLsr_some rowLsrZp rfl rfl rfl,
    runs_shift_accumulator ruleLsr ruleLsr_some rowLsrAcc rfl rfl rfl,
    runs_shift_memory ruleLsr ruleLsr_some rowLsrAbs rfl rfl rfl,
    runs_shift_memory ruleLsr ruleLsr_some rowLsrZpx rfl rfl rfl,
    runs_shift_memory ruleLsr ruleLsr_some rowLsrAbsx rfl rfl rfl,
    runs_shift_memory ruleRol ruleRol_some rowRolZp rfl rfl rfl,
    runs_shift_accumulator ruleRol ruleRol_some rowRolAcc rfl rfl rfl,
    runs_shift_memory ruleRol ruleRol_some rowRolAbs rfl rfl rfl,
    runs_shift_memory ruleRol ruleRol_some rowRolZpx rfl rfl rfl,
    runs_shift_memory ruleRol ruleRol_some rowRolAbsx rfl rfl rfl,
    runs_shift_memory ruleRor ruleRor_some rowRorZp rfl rfl rfl,
    runs_shift_accumulator ruleRor ruleRor_some rowRorAcc rfl rfl rfl,
    runs_shift_memory ruleRor ruleRor_some rowRorAbs rfl rfl rfl,
    runs_shift_memory ruleRor ruleRor_some rowRorZpx rfl rfl rfl,
    runs_shift_memory ruleRor ruleRor_some rowRorAbsx rfl rfl rfl⟩

end Sys2Proof.Machine
end

section
/-! The increments and decrements of 45_inc_dec.md, R115 to R120: a byte one up or one down modulo 256 (R94), with Z and
N of the result and no other flag. -/

namespace Sys2Proof.Machine

/-- R115, R116: a row whose rule replaces its operand by `step` of it (R94) and which addresses memory replaces the byte
there and sets Z and N of the result. -/
theorem runs_step_memory {i : Instr} {s : State} (rule : Rule) {step : Byte → Byte}
    (hsome : ∀ {res pcross e}, rule res pcross s = some e ↔
      ∃ m t, operandOf res s = some m ∧ writeBack res (step m) s = some t ∧
        e = .plain { t with p := setZN t.p (step m) })
    (r : Row) (hr : i.row = some r) (hrule : ruleOf r.kind = rule) {ea : Word}
    (hres : (resolve i.operand s).1 = .addr ea) :
    Runs i (r.opcode :: i.operand.bytes) s
      (({ s.write8 ea (step (s.read8 ea)) with p := setZN s.p (step (s.read8 ea)) } : State).onwardBy r
        (resolve i.operand s).2) :=
  runs_of_writeBack rule hsome r hr hrule (by rw [hres, operandOf_addr]) (by rw [hres, writeBack_addr]) rfl rfl

/-- R117 to R120: a row whose rule has the same plain effect at every operand, which leaves PC and the cycle counter to
the later stages, runs to that effect. -/
theorem runs_of_implied {i : Instr} {s t : State} (rule : Rule)
    (hsome : ∀ {res pcross e}, rule res pcross s = some e ↔ e = .plain t)
    (r : Row) (hr : i.row = some r) (hrule : ruleOf r.kind = rule) (hpc : t.pc = s.pc) (hcycles : t.cycles = s.cycles) :
    Runs i (r.opcode :: i.operand.bytes) s (t.onwardBy r (resolve i.operand s).2) :=
  runs_of_plain r hr hrule (hsome.mpr rfl) hpc hcycles

/-- Settles O39: every form of INC and DEC is `runs_step_memory` at its row, no row of them with a page-cross penalty;
the register forms are `runs_of_implied`, with the effect that `ruleInx_some`, `ruleIny_some`, `ruleDex_some` and
`ruleDey_some` name. `inc8` and `dec8` are the sum and the difference of the statement by definition. -/
theorem incrementsAndDecrementsWrapAndSetZN : Obligations.IncrementsAndDecrementsWrapAndSetZN := fun _ _ _ =>
  ⟨runs_step_memory ruleInc ruleInc_some rowIncZp rfl rfl rfl,
    runs_step_memory ruleInc ruleInc_some rowIncAbs rfl rfl rfl,
    runs_step_memory ruleInc ruleInc_some rowIncZpx rfl rfl rfl,
    runs_step_memory ruleInc ruleInc_some rowIncAbsx rfl rfl rfl,
    runs_step_memory ruleDec ruleDec_some rowDecZp rfl rfl rfl,
    runs_step_memory ruleDec ruleDec_some rowDecAbs rfl rfl rfl,
    runs_step_memory ruleDec ruleDec_some rowDecZpx rfl rfl rfl,
    runs_step_memory ruleDec ruleDec_some rowDecAbsx rfl rfl rfl,
    runs_of_implied ruleInx ruleInx_some rowInx rfl rfl rfl rfl,
    runs_of_implied ruleIny ruleIny_some rowIny rfl rfl rfl rfl,
    runs_of_implied ruleDex ruleDex_some rowDex rfl rfl rfl rfl,
    runs_of_implied ruleDey ruleDey_some rowDey rfl rfl rfl rfl,
    rfl, rfl, fun _ => ⟨rfl, rfl⟩⟩

end Sys2Proof.Machine
end

section
/-! Completion of an instruction whose rule may redirect PC (40_dispatch.md R79); then the conditional branches of
46_branch.md, R121 to R129. -/

namespace Sys2Proof.Machine

/-- An instruction runs to its rule's effect, committed as its row says. -/
theorem runs_of_effect {i : Instr} {s : State} {e : Effect} {rule : Rule} (r : Row) (hr : i.row = some r)
    (hrule : ruleOf r.kind = rule) (heff : rule (resolve i.operand s).1 (resolve i.operand s).2 s = some e) :
    Runs i (r.opcode :: i.operand.bytes) s (e.commit r (resolve i.operand s).2 s) :=
  ⟨encode_of_row hr, by rw [exec_of_row hr, hrule, runRow, runResolved_of_some heff]⟩

/-- The row of every branch: two bytes, Relative, 2 cycles and no page-cross penalty in the table, since a page cross
costs only a branch that is taken (R121). -/
def branchRow (op : Byte) (k : Kind) : Row := ⟨op, k, .relative, 2, 2, false⟩

/-- The state a branch with displacement `d` completes in (R121). -/
def State.branched (s : State) (d : Byte) (taken : Bool) : State :=
  if taken then s.jumped (branchTarget d s) (3 + (pageCross (s.pc + 2) (branchTarget d s)).toNat)
  else s.onward 2 2

/-- The row's 2 cycles and the 1 or 2 that a taken branch adds are the 3 or 4 of R121. -/
theorem Effect.commit_branch (op : Byte) (k : Kind) (d : Byte) (s : State) (cond : Bool) :
    (if cond then ⟨s, some (branchTarget d s), 1 + (pageCross (s.pc + 2) (branchTarget d s)).toNat⟩
      else .plain s : Effect).commit (branchRow op k) (pageCross (s.pc + 2) (branchTarget d s)) s =
      s.branched d cond := by
  cases cond with
  | false => rfl
  | true => simp [Effect.commit, branchRow, State.branched, State.jumped, ← Nat.add_assoc]

/-- R121: a branch whose rule tests `cond` goes to its target where `cond` holds, and on to the next instruction where
it does not. -/
theorem runs_branch {i : Instr} {s : State} {cond : Bool} (rule : Rule)
    (hsome : ∀ {res pcross e}, rule res pcross s = some e ↔
      ∃ target, eaOf res = some target ∧ e = if cond then ⟨s, some target, 1 + pcross.toNat⟩ else .plain s)
    (op : Byte) (k : Kind) (d : Byte) (hr : i.row = some (branchRow op k)) (hrule : ruleOf k = rule)
    (hd : i.operand = .relative d) : Runs i [op, d] s (s.branched d cond) := by
  have hres : resolve i.operand s = (.addr (branchTarget d s), pageCross (s.pc + 2) (branchTarget d s)) := by
    rw [hd, resolve]
  have runs := runs_of_effect (branchRow op k) hr hrule (hsome.mpr ⟨branchTarget d s, by rw [hres, eaOf_addr], rfl⟩)
  rw [hres, hd, Effect.commit_branch] at runs
  exact runs

/-- Settles O40: every branch is `runs_branch` at its opcode; the rule's own lemma says which flag it tests. -/
theorem branchesGoToTheTargetWhenTheirFlagSays : Obligations.BranchesGoToTheTargetWhenTheirFlagSays := fun _ d =>
  ⟨runs_branch ruleBcc ruleBcc_some 0x90 .bcc d rfl rfl rfl,
    runs_branch ruleBcs ruleBcs_some 0xB0 .bcs d rfl rfl rfl,
    runs_branch ruleBeq ruleBeq_some 0xF0 .beq d rfl rfl rfl,
    runs_branch ruleBne ruleBne_some 0xD0 .bne d rfl rfl rfl,
    runs_branch ruleBmi ruleBmi_some 0x30 .bmi d rfl rfl rfl,
    runs_branch ruleBpl ruleBpl_some 0x10 .bpl d rfl rfl rfl,
    runs_branch ruleBvc ruleBvc_some 0x50 .bvc d rfl rfl rfl,
    runs_branch ruleBvs ruleBvs_some 0x70 .bvs d rfl rfl rfl⟩

end Sys2Proof.Machine
end

section
/-! Completion of an instruction that sets PC itself (40_dispatch.md R79), and two or three pulls in a row (48_stack.md
R137); then JSR, RTS and RTI of 47_jump_call_system.md, R131, R132 and R134. -/

namespace Sys2Proof.Machine

/-! ## Completion of a redirect -/

section
variable {i : Instr} {s t : State} {target : Word}

/-- An effect that redirected PC and left the cycle counter to the later stages commits as a jump of its own state. -/
theorem Effect.commit_goto (hcycles : t.cycles = s.cycles) (r : Row) (pcross : Bool) :
    (Effect.goto t target).commit r pcross s = t.jumped target (r.base + (r.pageCross && pcross).toNat) := by
  simp [Effect.commit, State.jumped, hcycles]

/-- An instruction whose rule redirects PC runs to its rule's state, jumped to the target at the row's cost. -/
theorem runs_of_goto (rule : Rule) (r : Row) (hr : i.row = some r) (hrule : ruleOf r.kind = rule)
    (heff : rule (resolve i.operand s).1 (resolve i.operand s).2 s = some (.goto t target))
    (hcycles : t.cycles = s.cycles) :
    Runs i (r.opcode :: i.operand.bytes) s
      (t.jumped target (r.base + (r.pageCross && (resolve i.operand s).2).toNat)) :=
  Effect.commit_goto hcycles r _ ▸ runs_of_effect r hr hrule heff

end

/-! ## Pushes and pulls in a row -/

section
variable (s : State) (w : Word)

theorem byte_add_one_add_one (b : Byte) : b + 1 + 1 = b + 2 := BitVec.add_assoc b 1 1

theorem byte_add_two_add_one (b : Byte) : b + 2 + 1 = b + 3 := BitVec.add_assoc b 2 1

/-- A pull (R137) reads memory and leaves it as it is. -/
theorem State.read8_afterPull (b : Word) : s.afterPull.read8 b = s.read8 b := State.read8_congr s.afterPull_mem b

/-- Two pulls (R132) move SP up by two and change nothing else. -/
theorem State.afterPull_afterPull : s.afterPull.afterPull = { s with sp := s.sp + 2 } := by
  simp only [State.afterPull, byte_add_one_add_one]

/-- The pulled word (R132): low byte first, from the slot just above SP. -/
theorem State.pulledWord_eq :
    s.pulledWord = wordOf (s.read8 (stackAddr (s.sp + 2))) (s.read8 (stackAddr (s.sp + 1))) := by
  simp only [State.pulledWord, State.pulled, State.read8_afterPull, State.afterPull_sp, byte_add_one_add_one]

/-- The trap return (R163) takes P from the first of three pulls. -/
theorem State.trapReturn_eq :
    s.trapReturn = { s with p := pullImage (s.read8 (stackAddr (s.sp + 1))), sp := s.sp + 3 } := by
  simp only [State.trapReturn, State.afterPull, State.pulled, byte_add_one_add_one, byte_add_two_add_one]

/-- The trap return (R134) goes to the word above the status byte. -/
theorem State.trapReturnTarget_eq :
    s.trapReturnTarget = wordOf (s.read8 (stackAddr (s.sp + 3))) (s.read8 (stackAddr (s.sp + 2))) := by
  have high : s.sp + 1 + 2 = s.sp + 3 := BitVec.add_assoc s.sp 1 2
  simp only [State.trapReturnTarget, State.pulledWord_eq, State.read8_afterPull, State.afterPull_sp,
    byte_add_one_add_one, high]

/-- After a 16-bit push (R131) the low byte is the first to be pulled. -/
theorem State.read8_pushWord_lo : (s.pushWord w).read8 (stackAddr ((s.pushWord w).sp + 1)) = loByte w := by
  rw [State.pushWord_sp, BitVec.sub_add_cancel, State.read8_pushWord, if_pos rfl]

/-- After a 16-bit push (R131) the high byte is the second to be pulled; the low byte, one slot below, has not
overwritten it. -/
theorem State.read8_pushWord_hi : (s.pushWord w).read8 (stackAddr ((s.pushWord w).sp + 2)) = hiByte w := by
  have slot : s.sp - 1 - 1 + 2 = s.sp := by bv_omega
  have apart : stackAddr s.sp ≠ stackAddr (s.sp - 1) := fun h => by
    have := stackAddr_inj h
    bv_omega
  rw [State.pushWord_sp, slot, State.read8_pushWord, if_neg apart, if_pos rfl]

end

/-! ## JSR, RTS and RTI -/

/-- Settles O42: both are `runs_of_goto` at their row; what JSR leaves on the stack is the two `read8_pushWord` slots,
and RTS's two pulls are written out by `afterPull_afterPull` and `pulledWord_eq`. -/
theorem jsrPushesAndRtsPullsTheReturnAddress : Obligations.JsrPushesAndRtsPullsTheReturnAddress := by
  intro s a called returned
  refine ⟨?jsr, ?sp, ?lo, ?hi, ?rts⟩
  case jsr => exact runs_of_goto ruleJsr rowJsr rfl rfl (ruleJsr_some.mpr ⟨a, rfl, rfl⟩) (s.pushWord_cycles _)
  case sp => exact (s.pushWord_sp (s.pc + 2)).trans (sub_sub s.sp 1 1)
  case lo => exact s.read8_pushWord_lo (s.pc + 2)
  case hi => exact s.read8_pushWord_hi (s.pc + 2)
  case rts =>
    have runs : Runs .rts [0x60] s (s.afterPull.afterPull.jumped (s.pulledWord + 1) 6) :=
      runs_of_goto ruleRts rowRts rfl rfl (ruleRts_some.mpr rfl) rfl
    rwa [State.afterPull_afterPull, State.pulledWord_eq] at runs

/-- Settles O44: RTI is `runs_of_goto` at its row, its three pulls written out by `trapReturn_eq` and
`trapReturnTarget_eq`. -/
theorem rtiPullsStatusAndReturnAddress : Obligations.RtiPullsStatusAndReturnAddress := by
  intro s
  have runs : Runs .rti [0x40] s (s.trapReturn.jumped s.trapReturnTarget 6) :=
    runs_of_goto ruleRti rowRti rfl rfl (ruleRti_some.mpr rfl) s.trapReturn_cycles
  rwa [State.trapReturn_eq, State.trapReturnTarget_eq] at runs

end Sys2Proof.Machine
end

section
/-! The encoding of 30_encoding.md, sections 1 to 3: the decoder and the encoder are inverse to each other (R52,
R53), and the row of every instruction stands in the opcode table (R55, R56). -/

namespace Sys2Proof

open Machine (encode_of_row eq_illegal_of_row_none decode_wf)

/-! ## Decoding what was encoded -/

/-- At the opcode byte of its row, followed by its operand bytes, the decoder reads the instruction. -/
theorem decode_operandBytes {i : Instr} {r : Row} (hr : i.row = some r) (rest : List Byte) :
    decode r.opcode ((i.operand.bytes ++ rest).getD 0 0) ((i.operand.bytes ++ rest).getD 1 0) = i := by
  cases i <;> cases hr <;> simp [Instr.operand, Operand.bytes]

/-- An encoding is as long as its instruction (R52). -/
theorem length_encode (i : Instr) : (encode i).length = i.length := by
  cases i <;> rfl

/-- The bytes of an instruction are its opcode byte and its operand bytes (R53). -/
theorem length_eq_operandBytes (i : Instr) : i.length = i.operand.bytes.length + 1 := by
  cases i <;> rfl

/-- A list is cut behind the operand bytes of the instruction that its head decodes to. -/
theorem decodeBytes_append {op : Byte} {rest : List Byte} {i : Instr}
    (hi : decode op ((i.operand.bytes ++ rest).getD 0 0) ((i.operand.bytes ++ rest).getD 1 0) = i) :
    decodeBytes (op :: (i.operand.bytes ++ rest)) = some (i, rest) := by
  simp only [decodeBytes, hi, length_eq_operandBytes, List.length_append, Nat.add_sub_cancel, List.drop_left]
  exact if_pos (by omega)

/-- Settles O9: a legal instruction is the opcode byte of its row and its operand bytes, which decode to it; at an
illegal byte the decoder answers that byte and takes no other. -/
theorem decodeOfEncodeIsTheInstruction : Obligations.DecodeOfEncodeIsTheInstruction := by
  intro i rest hwf
  cases hr : i.row with
  | some r =>
    rw [encode_of_row hr]
    exact decodeBytes_append (decode_operandBytes hr rest)
  | none =>
    obtain ⟨op, rfl⟩ := eq_illegal_of_row_none hr
    exact decodeBytes_append (decode_of_mem_illegal (List.contains_iff_mem.mp hwf) _ _)

/-- Settles O8: each word is what the encoder makes of its instruction, so `decodeOfEncodeIsTheInstruction` reads it
back; the last list ends inside a JMP. -/
theorem sampleWordsDecode : Obligations.SampleWordsDecode := by
  have back := decodeOfEncodeIsTheInstruction
  exact ⟨back (.ldaImm 0x05) [] rfl, back (.adcImm 0x01) [0xFF] rfl, back (.bitAbs 0x0200) [] rfl,
    back (.aslAbsx 0x12F0) [] rfl, back (.incZp 0x10) [] rfl, back (.bne 0xF7) [] rfl, back (.jmpAbs 0x9000) [] rfl,
    back (.jmpInd 0x02FF) [] rfl, back .pha [] rfl, back .clv [] rfl, back (.illegal 0x02) [] rfl, rfl⟩

/-! ## The table -/

/-- The table has the row of an instruction at the row's opcode byte. -/
theorem lookup_opcode_of_row {i : Instr} {r : Row} (hr : i.row = some r) : lookup r.opcode = some r := by
  rw [lookup_eq_row, decode_operandBytes hr [], hr]

theorem mem_opcodeTable_of_lookup {op : Byte} {r : Row} (h : lookup op = some r) : r ∈ opcodeTable :=
  List.mem_of_find?_eq_some h

theorem opcode_of_lookup {op : Byte} {r : Row} (h : lookup op = some r) : r.opcode = op := by
  simpa using List.find?_some h

/-- The row of an instruction is a row of the table (R55). -/
theorem row_mem_opcodeTable {i : Instr} {r : Row} (hr : i.row = some r) : r ∈ opcodeTable :=
  mem_opcodeTable_of_lookup (lookup_opcode_of_row hr)

/-- What a check of the 151 rows finds true holds of the row of every instruction. -/
theorem forall_row {P : Row → Prop} [DecidablePred P] (check : opcodeTable.all (fun r => decide (P r)) = true)
    {i : Instr} {r : Row} (hr : i.row = some r) : P r :=
  of_decide_eq_true (List.all_eq_true.mp check r (row_mem_opcodeTable hr))

/-- The rows stand in rising order of opcode byte. -/
theorem opcodeTable_sorted : (opcodeTable.map (fun r => r.opcode.toNat)).Pairwise (· < ·) := by decide +kernel

/-- A byte that decodes to an instruction without a row decodes to `illegal` with that byte (R56). -/
theorem decode_of_row_none {op b1 b2 : Byte} : (decode op b1 b2).row = none → decode op b1 b2 = .illegal op := by
  unfold decode
  split <;> simp [Instr.row]

/-- A byte without an entry in the table decodes to `illegal` (R56). -/
theorem decode_of_lookup_none {op : Byte} (h : lookup op = none) (b1 b2 : Byte) : decode op b1 b2 = .illegal op :=
  decode_of_row_none ((lookup_eq_row op b1 b2).symm.trans h)

/-- Settles O11: the rows are sorted, so no two have one opcode byte; a byte without an entry decodes to a well-formed
`illegal`, which is what the illegal list names, and no byte of that list has an entry. -/
theorem everyByteIsLegalOrIllegalNeverBoth : Obligations.EveryByteIsLegalOrIllegalNeverBoth := by
  refine ⟨rfl, rfl, ?distinct, ?partition, ?entry⟩
  case distinct =>
    exact (List.pairwise_map.mp opcodeTable_sorted).imp (fun hlt heq => absurd (congrArg BitVec.toNat heq) hlt.ne)
  case partition =>
    intro op
    cases h : lookup op with
    | none =>
      have hwf := decode_wf op 0 0
      rw [decode_of_lookup_none h] at hwf
      exact (congrArg not hwf).symm
    | some r =>
      have legal : op ∉ illegalOpcodes := fun hop => by
        rw [Laws.TableAgrees.lookup_of_illegal op hop] at h
        cases h
      simp [legal]
  case entry => exact fun op r h => opcode_of_lookup h

/-! ## Encoding what was decoded -/

/-- The operand of a mode, made of the bytes that follow the opcode byte (R53). -/
def Mode.operandOf (m : Mode) (b1 b2 : Byte) : Operand :=
  match m with
  | .implied => .implied
  | .accumulator => .accumulator
  | .immediate => .immediate b1
  | .zeroPage => .zeroPage b1
  | .zeroPageX => .zeroPageX b1
  | .zeroPageY => .zeroPageY b1
  | .absolute => .absolute (wordOf b2 b1)
  | .absoluteX => .absoluteX (wordOf b2 b1)
  | .absoluteY => .absoluteY (wordOf b2 b1)
  | .indirect => .indirect (wordOf b2 b1)
  | .indirectX => .indirectX b1
  | .indirectY => .indirectY b1
  | .relative => .relative b1

/-- The decoder makes the operand of the row's mode from the bytes after the opcode byte. -/
theorem operand_decode {op b1 b2 : Byte} {r : Row} (hr : (decode op b1 b2).row = some r) :
    (decode op b1 b2).operand = r.mode.operandOf b1 b2 := by
  obtain ⟨⟨n, hn⟩⟩ := op
  interval_cases n <;> cases hr <;> rfl

/-- The bytes of that operand are as many of the two as it has. -/
theorem bytes_operandOf (m : Mode) (b1 b2 : Byte) :
    (m.operandOf b1 b2).bytes = [b1, b2].take (m.operandOf b1 b2).bytes.length := by
  cases m <;> simp [Mode.operandOf, Operand.bytes]

/-- The encoding of a decoded instruction is the opcode byte and its operand bytes, which are as many of the two bytes
read with it as its length covers. -/
theorem encode_decode (op b1 b2 : Byte) :
    encode (decode op b1 b2) = op :: [b1, b2].take ((decode op b1 b2).length - 1) := by
  cases hr : (decode op b1 b2).row with
  | some r =>
    have hop : r.opcode = op := opcode_of_lookup ((lookup_eq_row op b1 b2).trans hr)
    rw [encode_of_row hr, hop, length_eq_operandBytes, operand_decode hr, Nat.add_sub_cancel, ← bytes_operandOf]
  | none =>
    rw [decode_of_row_none hr]
    rfl

theorem length_bounds (i : Instr) : 1 ≤ i.length ∧ i.length ≤ 3 := by
  cases hr : i.row with
  | some r => simpa [Instr.length, hr] using forall_row (P := fun r => 1 ≤ r.length ∧ r.length ≤ 3) rfl hr
  | none => simp [Instr.length, hr]

/-- What decoding a list that starts with an opcode byte answers. -/
theorem decodeBytes_cons {op : Byte} {tail rest : List Byte} {i : Instr}
    (h : decodeBytes (op :: tail) = some (i, rest)) :
    decode op (tail.getD 0 0) (tail.getD 1 0) = i ∧ i.length ≤ tail.length + 1 ∧ tail.drop (i.length - 1) = rest := by
  rw [decodeBytes, Option.ite_none_right_eq_some] at h
  obtain ⟨hlen, h⟩ := h
  cases h
  exact ⟨rfl, hlen, rfl⟩

/-- Within a list, its first two bytes, taken singly, are the start of the list. -/
theorem take_getD_pair {l : List Byte} {k : Nat} (hk : k ≤ 2) (hl : k ≤ l.length) :
    [l.getD 0 0, l.getD 1 0].take k = l.take k := by
  match k, l with
  | 0, _ => rfl
  | 1, _ :: _ => rfl
  | 2, _ :: _ :: _ => rfl

/-- Settles O10: the decoder answers well-formed instructions only (`decode_wf`), and `encode_decode` says which bytes
were consumed. -/
theorem encodeOfDecodeIsTheBytes : Obligations.EncodeOfDecodeIsTheBytes := by
  intro bytes rest i h
  obtain ⟨hmin, hmax⟩ := length_bounds i
  cases bytes with
  | nil => cases h
  | cons op tail =>
    obtain ⟨hi, hlen, hrest⟩ := decodeBytes_cons h
    have henc : encode i = op :: tail.take (i.length - 1) := by
      have := encode_decode op (tail.getD 0 0) (tail.getD 1 0)
      rwa [hi, take_getD_pair (by omega) (by omega)] at this
    refine ⟨hi ▸ decode_wf _ _ _, ?bytes, ?length, hmin, hmax⟩
    case bytes => rw [henc, ← hrest, List.cons_append, List.take_append_drop]
    case length =>
      rw [henc, List.length_cons, List.length_take]
      omega

end Sys2Proof
end

section
/-! The step of 40_dispatch.md section 1: it is refused outside Running (R74), runs the instruction whose bytes stand
at PC (R75), and is the table-driven step that R73 writes out. -/

namespace Sys2Proof.Machine

variable {s : State}

/-! ## Refused, or a next state -/

/-- An instruction answers a next state in every state (log 5). -/
theorem exec_total (i : Instr) (s : State) : ∃ t, exec i s = .next t := by
  cases hr : i.row with
  | some r =>
    obtain ⟨e, -, hexec⟩ := exec_row_commits hr s
    exact ⟨_, hexec⟩
  | none =>
    obtain ⟨op, rfl⟩ := eq_illegal_of_row_none hr
    exact ⟨_, exec_illegal op s⟩

theorem step_total (hs : s.run = .running) : ∃ t, step s = .next t :=
  step_running hs ▸ exec_total s.fetch s

/-- Settles O2: `step_not_running` gives the refusal and `step_total` excludes it from a Running state. -/
theorem stepRefusesExactlyWhenNotRunning : Obligations.StepRefusesExactlyWhenNotRunning := by
  intro s
  refine ⟨⟨fun href hs => ?_, step_not_running⟩, fun hs => stepCall_of_refused (step_not_running hs), step_total⟩
  obtain ⟨t, ht⟩ := step_total hs
  cases href.symm.trans ht

/-! ## The instruction at PC -/

/-- Settles O3: the fetched instruction is by definition the one the three bytes at PC decode to. -/
theorem stepRunsTheDecodedInstruction : Obligations.StepRunsTheDecodedInstruction := by
  intro s i hs hi
  rw [step_running hs, State.fetch, hi]

/-- The bytes at PC, PC + 1 and PC + 2 start with those of an instruction that stands there. -/
theorem encode_prefix_of_bytes_at_pc {i : Instr}
    (h : ∀ k b, (encode i)[k]? = some b → s.read8 (s.pc + BitVec.ofNat 16 k) = b) :
    encode i <+: [s.read8 s.pc, s.read8 (s.pc + 1), s.read8 (s.pc + 2)] := by
  have hlen : (encode i).length ≤ 3 :=
    length_encode i ▸ (length_bounds i).2
  refine List.prefix_iff_getElem?.mpr fun k hk => ?_
  rw [← h k _ (List.getElem?_eq_getElem hk)]
  match k, hk.trans_le hlen with
  | 0, _ => exact congrArg (fun a => some (s.read8 a)) (BitVec.add_zero s.pc).symm
  | 1, _ => rfl
  | 2, _ => rfl

/-- Settles O4: the three bytes at PC decode to the instruction they start with (`decodeOfEncodeIsTheInstruction`),
and that is the one fetched. -/
theorem stepRunsTheEncodedInstruction : Obligations.StepRunsTheEncodedInstruction := by
  intro s i hwf hs h
  obtain ⟨rest, hbytes⟩ := encode_prefix_of_bytes_at_pc h
  have hdec := decodeOfEncodeIsTheInstruction i rest hwf
  rw [hbytes] at hdec
  exact stepRunsTheDecodedInstruction s i hs (decodeBytes_cons hdec).1

/-! ## The table-driven step -/

theorem word_add_one_add_one (w : Word) : w + 1 + 1 = w + 2 := BitVec.add_assoc w 1 1

/-- Settles O20: both resolvers compute one address; the operand byte of Relative stands at PC + 1, so that the next
instruction is at PC + 2. -/
theorem resolverReadsTheOperandBytes : Obligations.ResolverReadsTheOperandBytes := by
  intro s p
  refine ⟨rfl, rfl, rfl, rfl, rfl, rfl, rfl, rfl, rfl, rfl, rfl, ?relative, rfl, rfl⟩
  case relative => simp only [resolveAt, resolve, branchTarget, pageCross, word_add_one_add_one]

/-- But for Immediate, resolving from memory (R57) is resolving the operand made of the bytes at PC + 1 and PC + 2. -/
theorem resolveAt_pc {m : Mode} (hm : m ≠ .immediate) :
    resolveAt m (s.pc + 1) s = resolve (m.operandOf (s.read8 (s.pc + 1)) (s.read8 (s.pc + 2))) s := by
  have word : s.read16 (s.pc + 1) = wordOf (s.read8 (s.pc + 2)) (s.read8 (s.pc + 1)) := by
    rw [State.read16, word_add_one_add_one]
  obtain ⟨implied, accumulator, zeroPage, zeroPageX, zeroPageY, absolute, absoluteX, absoluteY, indirect, indirectX,
    indirectY, relative, -⟩ := resolverReadsTheOperandBytes s (s.pc + 1)
  cases m with
  | immediate => exact absurd rfl hm
  | implied | accumulator | zeroPage | zeroPageX | zeroPageY | indirectX | indirectY | relative => assumption
  | absolute | absoluteX | absoluteY | indirect => simpa only [Mode.operandOf, ← word]

/-- In Immediate mode the rule sees a literal in place of the address of the operand byte (R59, log 6). Each kind
with an Immediate row reads that byte (R83) and asks no address, so its effect is the same. -/
theorem rule_literal {i : Instr} {r : Row} (hr : i.row = some r) (hmode : r.mode = .immediate) (p : Word) (b : Bool) :
    ruleOf r.kind (.literal (s.read8 p)) b s = ruleOf r.kind (.addr p) b s := by
  have hk : r.kind ∈ [.lda, .ldx, .ldy, .adc, .sbc, .cmp, .cpx, .cpy, .and, .ora, .eor] :=
    forall_row (P := fun r => r.mode = .immediate → r.kind ∈
      [.lda, .ldx, .ldy, .adc, .sbc, .cmp, .cpx, .cpy, .and, .ora, .eor]) rfl hr hmode
  generalize r.kind = k at hk
  cases k with
  | lda | ldx | ldy | adc | sbc | cmp | cpx | cpy | and | ora | eor => rfl
  | _ => exact absurd hk (by decide)

/-- The table entry of the byte at PC is the row of the fetched instruction. -/
theorem lookup_pc : lookup (s.read8 s.pc) = s.fetch.row := lookup_eq_row ..

/-- A legal instruction at PC has the effect of its row on the operand that the resolver reads from memory. -/
theorem exec_fetch_eq_runResolved {r : Row} (hr : s.fetch.row = some r) :
    exec s.fetch s = runResolved r (resolveAt r.mode (s.pc + 1) s) (ruleOf r.kind) s := by
  have operand : s.fetch.operand = r.mode.operandOf (s.read8 (s.pc + 1)) (s.read8 (s.pc + 2)) := operand_decode hr
  rw [exec_of_row hr, runRow, operand]
  by_cases hm : r.mode = .immediate
  · simp only [runResolved, hm, resolveAt, resolve, Mode.operandOf, rule_literal hr hm]
  · rw [resolveAt_pc hm]

/-- Settles O5: the decoder and the table agree on the byte at PC; a legal instruction is
`exec_fetch_eq_runResolved`. -/
theorem stepIsTheTableStep : Obligations.StepIsTheTableStep := by
  intro s
  by_cases hs : s.run = .running
  · rw [step_running hs]
    cases hr : s.fetch.row with
    | some r => simp only [tableStep, hs, if_true, lookup_pc, hr, exec_fetch_eq_runResolved hr]
    | none =>
      have illegal : s.fetch = .illegal (s.read8 s.pc) := decode_of_row_none hr
      rw [illegal, exec_illegal]
      simp only [tableStep, hs, if_true, lookup_pc, hr]
  · rw [step_not_running hs, tableStep, if_neg hs]

/-- Settles O50: an illegal byte raises its fault by `exec_illegal`, and the decoder answers `illegal` at each of the
105 bytes, whatever follows. -/
theorem illegalBytesRaiseIllegalOpcode : Obligations.IllegalBytesRaiseIllegalOpcode := by
  refine ⟨exec_illegal, fun s hs hop => ?_⟩
  rw [stepRunsTheDecodedInstruction s _ hs (decode_of_mem_illegal hop _ _)]
  exact exec_illegal _ s

end Sys2Proof.Machine
end

section
/-! The page-cross flag of an indexed mode (30_encoding.md R58) as a carry out of the low byte. -/

namespace Sys2Proof.Machine

/-- Settles O23: the flag compares the pages of base and sum (`pageCross_eq`), and the page changes exactly when the low
byte of the base and the index carry into it; past 0xFFFF it changes from 0xFF to 0. -/
theorem pageCrossIffLowByteCarries : Obligations.PageCrossIffLowByteCarries := by
  intro base i
  have sum := toNat_add_zext16 base i
  have hbase := base.isLt
  have hi := i.isLt
  rw [pageCross_eq, decide_eq_decide, sum]
  omega

end Sys2Proof.Machine
end

section
/-! Memory as a whole: the host's load (20_memory.md R50), and the contents that canonical memories can have
(00_scope.md R8, log 1). -/

namespace Sys2Proof.Machine

/-! ## Load -/

/-- A load that ends inside the address space keeps the canonical form. -/
theorem Memory.wf_loadFrom {m : Memory} (hm : m.wf = true) {a : Nat} {bytes : List Byte}
    (ha : a + bytes.length ≤ 65536) : (m.loadFrom a bytes).wf = true := by
  induction bytes generalizing m a with
  | nil => exact hm
  | cons v rest ih =>
    rw [List.length_cons] at ha
    exact ih (Memory.wf_write hm (by omega) v) (by omega)

/-- A load leaves every address before and behind its range. -/
theorem Memory.read_loadFrom_outside (m : Memory) {a x : Nat} {bytes : List Byte}
    (hx : x < a ∨ a + bytes.length ≤ x) : (m.loadFrom a bytes).read x = m.read x := by
  induction bytes generalizing m a with
  | nil => rfl
  | cons v rest ih =>
    rw [List.length_cons] at hx
    rw [Memory.loadFrom, ih _ (by omega), Memory.read_write_other _ _ (by omega)]

/-- Byte `k` of a load is read `k` behind its address: no later byte overwrites it. -/
theorem Memory.read_loadFrom (m : Memory) {a k : Nat} {bytes : List Byte} {b : Byte} (hb : bytes[k]? = some b) :
    (m.loadFrom a bytes).read (a + k) = b := by
  induction bytes generalizing m a k with
  | nil => cases hb
  | cons v rest ih =>
    cases k with
    | zero =>
      cases hb
      rw [Memory.loadFrom, Memory.read_loadFrom_outside _ (by omega), Nat.add_zero, Memory.read_write_same]
    | succ k =>
      rw [Memory.loadFrom, ← ih (m.write a v) (a := a + 1) hb, Nat.add_right_comm, Nat.add_assoc]

theorem State.load_ok {s : State} {address : Word} {bytes : List Byte} (h : address.toNat + bytes.length ≤ 0x10000) :
    s.load address bytes = .ok { s with mem := s.mem.loadFrom address.toNat bytes } :=
  if_neg (Nat.not_lt.mpr h)

theorem State.load_error {s : State} {address : Word} {bytes : List Byte} (h : 0x10000 < address.toNat + bytes.length) :
    s.load address bytes = .error ⟨address, bytes.length⟩ :=
  if_pos h

/-- An address inside a load does not wrap. -/
theorem toNat_add_ofNat {a : Word} {k : Nat} (h : a.toNat + k < 65536) :
    (a + BitVec.ofNat 16 k).toNat = a.toNat + k := by
  rw [BitVec.toNat_add, BitVec.toNat_ofNat]
  omega

/-- Settles O15: the bound decides; inside it the loaded bytes are read by `Memory.read_loadFrom` and the others by
`Memory.read_loadFrom_outside`. -/
theorem loadWritesAllOrNothing : Obligations.LoadWritesAllOrNothing := by
  intro s address bytes
  refine ⟨State.load_error, fun h => ⟨_, State.load_ok h, rfl, ?inside, fun x => Memory.read_loadFrom_outside s.mem⟩⟩
  case inside =>
    intro k b hb
    have hk : k < bytes.length := (List.getElem?_eq_some_iff.mp hb).1
    rw [State.read8, toNat_add_ofNat (by omega)]
    exact Memory.read_loadFrom s.mem hb

/-! ## The contents of canonical memories -/

/-- Below its first cell a canonical memory reads the initial byte. -/
theorem Memory.read_of_lt {lo a : Nat} {m : Memory} (hm : Memory.wfFrom lo m = true) (ha : a < lo) :
    m.read a = Config.initialByte := by
  induction m generalizing lo with
  | nil => rfl
  | cons c rest ih =>
    obtain ⟨k, v⟩ := c
    obtain ⟨hlo, -, -, hrest⟩ := (Memory.wfFrom_cons ..).mp hm
    rw [Memory.read_cons, if_neg (by omega), ih hrest (by omega)]

/-- A cell of a canonical memory has no rival: another canonical memory that reads alike starts at or before it. -/
theorem Memory.start_le_of_read_eq {lo lo' k : Nat} {v : Byte} {rest m : Memory}
    (h : Memory.wfFrom lo ((k, v) :: rest) = true) (hm : Memory.wfFrom lo' m = true)
    (hread : ∀ a < 65536, Memory.read ((k, v) :: rest) a = m.read a) : lo' ≤ k := by
  obtain ⟨-, hk, hv, -⟩ := (Memory.wfFrom_cons ..).mp h
  by_contra hlt
  have initial := hread k hk
  rw [Memory.read_cons, if_pos rfl, Memory.read_of_lt hm (by omega)] at initial
  exact hv initial

/-- A canonical memory is canonical from its first cell on. -/
theorem Memory.wfFrom_head {lo k : Nat} {v : Byte} {rest : Memory} (h : Memory.wfFrom lo ((k, v) :: rest) = true) :
    Memory.wfFrom k ((k, v) :: rest) = true := by
  rw [Memory.wfFrom_cons] at h ⊢
  exact ⟨le_rfl, h.2⟩

/-- Canonical memories that read alike are the same cells: `start_le_of_read_eq`, both ways, makes the first cells
one. -/
theorem Memory.wfFrom_ext {lo lo' : Nat} {m m' : Memory} (hm : Memory.wfFrom lo m = true)
    (hm' : Memory.wfFrom lo' m' = true) (hread : ∀ a < 65536, m.read a = m'.read a) : m = m' := by
  have hread' : ∀ a < 65536, m'.read a = m.read a := fun a ha => (hread a ha).symm
  induction m generalizing m' lo lo' with
  | nil =>
    cases m' with
    | nil => rfl
    | cons c' rest' =>
      have := Memory.start_le_of_read_eq (lo' := 65536) hm' rfl hread'
      have := ((Memory.wfFrom_cons ..).mp hm').2.1
      omega
  | cons c rest ih =>
    obtain ⟨k, v⟩ := c
    obtain ⟨-, hk, -, hrest⟩ := (Memory.wfFrom_cons ..).mp hm
    cases m' with
    | nil =>
      have := Memory.start_le_of_read_eq (lo' := 65536) hm rfl hread
      omega
    | cons c' rest' =>
      obtain ⟨k', v'⟩ := c'
      obtain ⟨-, -, -, hrest'⟩ := (Memory.wfFrom_cons ..).mp hm'
      have first : k = k' := Nat.le_antisymm (Memory.start_le_of_read_eq hm' (Memory.wfFrom_head hm) hread')
        (Memory.start_le_of_read_eq hm (Memory.wfFrom_head hm') hread)
      subst first
      have value : v = v' := by simpa using hread k hk
      have tails : ∀ a < 65536, Memory.read rest a = Memory.read rest' a := fun a ha => by
        by_cases hka : k = a
        · rw [Memory.read_of_lt hrest (by omega), Memory.read_of_lt hrest' (by omega)]
        · simpa [hka] using hread a ha
      rw [value, ih hrest hrest' tails (fun a ha => (tails a ha).symm)]

/-- Settles O16: the bytes of the content, loaded from address 0, are a canonical memory with that content; that
there is no other is `Memory.wfFrom_ext`. -/
theorem everyInitialMemoryIsAMemory : Obligations.EveryInitialMemoryIsAMemory := by
  refine ⟨fun f => ⟨Memory.loadFrom [] 0 (List.ofFn fun a : Fin 65536 => f (BitVec.ofFin a)), ?wf, fun a => ?read⟩,
    ?unique⟩
  case wf => exact Memory.wf_loadFrom rfl (by rw [List.length_ofFn])
  case read =>
    rw [← Nat.zero_add a.toNat]
    exact Memory.read_loadFrom [] (List.getElem?_ofFn.trans (dif_pos a.isLt))
  case unique =>
    intro m m' hm hm' hread
    exact Memory.wfFrom_ext hm hm' fun a ha => by
      simpa [Nat.mod_eq_of_lt ha] using hread (BitVec.ofNat 16 a)

end Sys2Proof.Machine
end

section
/-! The 16-bit accesses of 20_memory.md (R37, R38) and of JMP indirect (30_encoding.md R67), and the stack primitives
of 48_stack.md section 1. -/

namespace Sys2Proof.Machine

/-! ## 16-bit accesses -/

theorem State.toNat_read16 (s : State) (a : Word) :
    (s.read16 a).toNat = 256 * (s.read8 (a + 1)).toNat + (s.read8 a).toNat :=
  toNat_wordOf _ _

/-- A word reads back as written (R38): its two bytes lie at different addresses, at the end of the address space
too. -/
theorem State.read16_write16 (s : State) (a w : Word) : (s.write16 a w).read16 a = w := by
  have apart : a ≠ a + 1 := by bv_omega
  rw [State.read16, State.write16, State.read8_write8_same, State.read8_write8_other _ _ apart,
    State.read8_write8_same, wordOf_hiByte_loByte]

/-- The address of the high byte of R67 keeps the pointer's page. -/
theorem toNat_pageNext (a : Word) :
    (wordOf (hiByte a) (loByte a + 1)).toNat = a.toNat / 256 * 256 + (a.toNat % 256 + 1) % 256 := by
  have low : (loByte a + 1).toNat = (a.toNat % 256 + 1) % 256 := by
    rw [BitVec.toNat_add, toNat_loByte]
    rfl
  rw [toNat_wordOf, toNat_hiByte, low, Nat.mul_comm]

/-- Settles O18: `toNat_wordOf` gives both reads as sums; a word reads back by `State.read16_write16`. -/
theorem sixteenBitReadsAreLittleEndian : Obligations.SixteenBitReadsAreLittleEndian := fun s a w =>
  ⟨s.toNat_read16 a, s.read16_write16 a w, wordOf (hiByte a) (loByte a + 1), toNat_pageNext a, toNat_wordOf _ _⟩

/-! ## The stack primitives -/

theorem State.read8_push_same (s : State) (v : Byte) : (s.push v).read8 (stackAddr s.sp) = v := by
  rw [State.read8_push, if_pos rfl]

theorem State.read8_push_other (s : State) (v : Byte) {b : Word} (h : b ≠ stackAddr s.sp) :
    (s.push v).read8 b = s.read8 b := by
  rw [State.read8_push, if_neg h]

/-- A pull (R137) undoes the push (R136) before it. -/
theorem State.push_sp_add_one (s : State) (v : Byte) : (s.push v).sp + 1 = s.sp := BitVec.sub_add_cancel s.sp 1

theorem State.pulled_push (s : State) (v : Byte) : (s.push v).pulled = v := by
  rw [State.pulled, State.push_sp_add_one, State.read8_push_same]

/-- Settles O45: the address by `toNat_stackAddr`, what a push stores and leaves by the two `read8_push` lemmas, and
the round trip by `State.pulled_push`. -/
theorem stackPrimitivesStayInPageOne : Obligations.StackPrimitivesStayInPageOne := by
  intro s v
  refine ⟨toNat_stackAddr s.sp, s.read8_push_same v, fun _ hx => s.read8_push_other v hx, ?down, rfl,
    BitVec.toNat_add s.sp 1, s.pulled_push v, s.push_sp_add_one v⟩
  case down => exact (BitVec.toNat_sub s.sp 1).trans (congrArg (· % 256) (Nat.add_comm 255 s.sp.toNat))

end Sys2Proof.Machine
end

section
/-! What the rule of an instruction can do beside its result (40_dispatch.md R78 to R80), said once for all kinds: the
registers, the run state, the target and the extra cycles as one frame, memory as one list of cases. -/

namespace Sys2Proof.Machine

/-! ## The frame of a rule -/

/-- The kinds of the eight conditional branches. -/
def branchKinds : List Kind := [.bcc, .bcs, .beq, .bne, .bmi, .bpl, .bvc, .bvs]

theorem isBranch_eq (i : Instr) : isBranch i = isKind branchKinds i := rfl

/-- What an effect of a rule of kind `k` leaves: the registers that are no destination of the kind (10_state.md
section 2), the session parameter, the run state but for a halting BRK, PC but for a redirect (R79), and the cycle
count but for a branch (R179). -/
structure Effect.Framed (k : Kind) (res : Resolved) (s : State) (e : Effect) : Prop where
  a : k ∉ [.lda, .adc, .sbc, .and, .ora, .eor, .pla, .txa, .tya] → res ≠ .accumulator → e.state.a = s.a
  x : k ∉ [.ldx, .inx, .dex, .tax, .tsx] → e.state.x = s.x
  y : k ∉ [.ldy, .iny, .dey, .tay] → e.state.y = s.y
  sp : k ∉ [.txs, .pha, .php, .pla, .plp, .jsr, .rts, .rti] → (k = .brk → s.brkHandler = false) → e.state.sp = s.sp
  brkHandler : e.state.brkHandler = s.brkHandler
  run : e.state.run = s.run ∨ (k = .brk ∧ s.brkHandler = false ∧ e.state.run = .halted)
  target : k ∉ branchKinds → k ∉ [.jmp, .jsr, .rts, .rti] → (k = .brk → s.brkHandler = false) → e.target = none
  extra : k ∉ branchKinds → e.extra = 0
  taken : k ∈ branchKinds → e.target = none ∨ 1 ≤ e.extra
  extra_le : e.extra ≤ 2

variable {k : Kind} {res : Resolved} {pcross : Bool} {s : State} {e : Effect}

/-- A branch (R121) changes PC and the cycle count alone. -/
theorem framed_branch {cond : Bool} (hk : k ∈ branchKinds) (he : branchIf cond res pcross s = some e) :
    e.Framed k res s := by
  obtain ⟨target, -, rfl⟩ := branchIf_some.mp he
  have := pcross.toNat_le
  cases cond <;> constructor <;> simp [hk]
  omega

/-- Every rule keeps its kind's frame. The cases are grouped by the shape of the rule: it reads an operand, writes a
result back, stores or jumps to its address, or uses no operand; it is a branch, or BRK. -/
theorem rule_framed (he : ruleOf k res pcross s = some e) : e.Framed k res s := by
  cases k with
  | lda | ldx | ldy | adc | sbc | cmp | cpx | cpy | and | ora | eor | bit =>
    simp only [ruleOf, ruleLda_some, ruleLdx_some, ruleLdy_some, ruleAdc_some, ruleSbc_some, ruleCmp_some,
      ruleCpx_some, ruleCpy_some, ruleAnd_some, ruleOra_some, ruleEor_some, ruleBit_some] at he
    obtain ⟨m, -, rfl⟩ := he
    constructor <;> simp [branchKinds]
  | inc | dec | asl | lsr | rol | ror =>
    simp only [ruleOf, ruleInc_some, ruleDec_some, ruleAsl_some, ruleLsr_some, ruleRol_some, ruleRor_some] at he
    obtain ⟨m, t, -, ht, rfl⟩ := he
    obtain ⟨ea, -, rfl⟩ | ⟨rfl, rfl⟩ := writeBack_some.mp ht <;> constructor <;> simp [branchKinds]
  | sta | stx | sty | jmp | jsr =>
    simp only [ruleOf, ruleSta_some, ruleStx_some, ruleSty_some, ruleJmp_some, ruleJsr_some] at he
    obtain ⟨ea, -, rfl⟩ := he
    constructor <;> simp [branchKinds]
  | inx | iny | dex | dey | tax | tay | txa | tya | tsx | txs | clc | sec | cli | sei | cld | sed | clv | nop
  | pha | php | pla | plp | rts | rti =>
    simp only [ruleOf, ruleInx_some, ruleIny_some, ruleDex_some, ruleDey_some, ruleTax_some, ruleTay_some,
      ruleTxa_some, ruleTya_some, ruleTsx_some, ruleTxs_some, ruleClc_some, ruleSec_some, ruleCli_some, ruleSei_some,
      ruleCld_some, ruleSed_some, ruleClv_some, ruleNop_some, rulePha_some, rulePhp_some, rulePla_some, rulePlp_some,
      ruleRts_some, ruleRti_some] at he
    subst he
    constructor <;> simp [branchKinds]
  | bcc | bcs | beq | bne | bmi | bpl | bvc | bvs => exact framed_branch (by decide) he
  | brk =>
    rw [ruleOf, ruleBrk_some] at he
    subst he
    cases hb : s.brkHandler <;> constructor <;> simp [branchKinds, hb]

/-! ## Memory -/

/-- What memory can be after a rule of kind `k` (20_memory.md sections 2 and 5): as before, or with one byte written
at the effective address, or with pushes on the stack. -/
inductive MemoryAfter (k : Kind) (res : Resolved) (s : State) : Memory → Prop
  | kept : MemoryAfter k res s s.mem
  | stored (ea : Word) (v : Byte) (hres : res = .addr ea)
      (hk : k ∈ [.sta, .stx, .sty, .inc, .dec, .asl, .lsr, .rol, .ror]) : MemoryAfter k res s (s.write8 ea v).mem
  | pushed (v : Byte) (hk : k ∈ [.pha, .php]) : MemoryAfter k res s (s.push v).mem
  | called (w : Word) (hk : k = .jsr) : MemoryAfter k res s (s.pushWord w).mem
  | trapped (w : Word) (hk : k = .brk) (hb : s.brkHandler = true) : MemoryAfter k res s (s.trapEntry w).mem

/-- Only an address has an effective address (R85). -/
theorem eq_addr_of_eaOf {ea : Word} (h : eaOf res = some ea) : res = .addr ea := by
  cases res <;> cases h
  rfl

theorem memoryAfter_branch {cond : Bool} (he : branchIf cond res pcross s = some e) :
    MemoryAfter k res s e.state.mem := by
  obtain ⟨target, -, rfl⟩ := branchIf_some.mp he
  cases cond <;> exact .kept

/-- Writing a result back (R84) writes the byte at the effective address, or A. -/
theorem memoryAfter_writeBack {v : Byte} {t : State}
    (hk : k ∈ [.sta, .stx, .sty, .inc, .dec, .asl, .lsr, .rol, .ror]) (ht : writeBack res v s = some t) :
    MemoryAfter k res s t.mem := by
  obtain ⟨ea, rfl, rfl⟩ | ⟨-, rfl⟩ := writeBack_some.mp ht
  · exact .stored ea v rfl hk
  · exact .kept

/-- Every rule changes memory in one of these ways. The cases are grouped as in `rule_framed`. -/
theorem rule_memory (he : ruleOf k res pcross s = some e) : MemoryAfter k res s e.state.mem := by
  cases k with
  | lda | ldx | ldy | adc | sbc | cmp | cpx | cpy | and | ora | eor | bit =>
    simp only [ruleOf, ruleLda_some, ruleLdx_some, ruleLdy_some, ruleAdc_some, ruleSbc_some, ruleCmp_some,
      ruleCpx_some, ruleCpy_some, ruleAnd_some, ruleOra_some, ruleEor_some, ruleBit_some] at he
    obtain ⟨m, -, rfl⟩ := he
    exact .kept
  | inc | dec | asl | lsr | rol | ror =>
    simp only [ruleOf, ruleInc_some, ruleDec_some, ruleAsl_some, ruleLsr_some, ruleRol_some, ruleRor_some] at he
    obtain ⟨m, t, -, ht, rfl⟩ := he
    exact memoryAfter_writeBack (t := t) (by decide) ht
  | sta | stx | sty =>
    simp only [ruleOf, ruleSta_some, ruleStx_some, ruleSty_some] at he
    obtain ⟨ea, hea, rfl⟩ := he
    exact .stored ea _ (eq_addr_of_eaOf hea) (by decide)
  | jmp =>
    rw [ruleOf, ruleJmp_some] at he
    obtain ⟨ea, -, rfl⟩ := he
    exact .kept
  | jsr =>
    rw [ruleOf, ruleJsr_some] at he
    obtain ⟨ea, -, rfl⟩ := he
    exact .called _ rfl
  | pha | php =>
    simp only [ruleOf, rulePha_some, rulePhp_some] at he
    subst he
    exact .pushed _ (by decide)
  | inx | iny | dex | dey | tax | tay | txa | tya | tsx | txs | clc | sec | cli | sei | cld | sed | clv | nop
  | pla | plp | rts | rti =>
    simp only [ruleOf, ruleInx_some, ruleIny_some, ruleDex_some, ruleDey_some, ruleTax_some, ruleTay_some,
      ruleTxa_some, ruleTya_some, ruleTsx_some, ruleTxs_some, ruleClc_some, ruleSec_some, ruleCli_some, ruleSei_some,
      ruleCld_some, ruleSed_some, ruleClv_some, ruleNop_some, rulePla_some, rulePlp_some, ruleRts_some,
      ruleRti_some] at he
    subst he
    exact .kept
  | bcc | bcs | beq | bne | bmi | bpl | bvc | bvs => exact memoryAfter_branch he
  | brk =>
    rw [ruleOf, ruleBrk_some] at he
    subst he
    cases hb : s.brkHandler with
    | true => exact .trapped _ rfl hb
    | false => exact .kept

end Sys2Proof.Machine
end

section
/-! The frames of all instructions: registers (10_state.md section 2), memory (20_memory.md section 2), the run state
(10_state.md section 4), PC and the cycle counter (40_dispatch.md R79, R80), and the step as the host calls it. -/

namespace Sys2Proof.Machine

variable {i : Instr} {r : Row} {s t : State}

/-! ## Registers -/

/-- An operand resolves to the accumulator in Accumulator mode alone (R68). -/
theorem resolve_ne_accumulator {o : Operand} (ho : o ≠ .accumulator) : (resolve o s).1 ≠ .accumulator := by
  cases o with
  | accumulator => exact absurd rfl ho
  | _ => simp [resolve]

/-- Settles O51: a legal instruction commits its rule's effect, whose registers `rule_framed` bounds; raising a fault
leaves them. -/
theorem registersChangeOnlyAsDestinations : Obligations.RegistersChangeOnlyAsDestinations := by
  intro i s t h
  cases hr : i.row with
  | some r =>
    obtain ⟨e, he, hexec⟩ := exec_row_commits hr s
    cases hexec.symm.trans h
    have frame := rule_framed he
    simp only [writesA, writesX, writesY, writesSP, isKind_of_row hr, Bool.or_eq_false_iff, Bool.and_eq_false_iff,
      beq_eq_false_iff_ne, decide_eq_false_iff_not]
    refine ⟨fun ⟨hk, ho⟩ => frame.a hk (resolve_ne_accumulator ho), frame.x, frame.y, fun ⟨hk, hb⟩ => frame.sp hk ?_⟩
    exact fun hbrk => hb.resolve_left (by simp [hbrk])
  | none =>
    obtain ⟨op, rfl⟩ := eq_illegal_of_row_none hr
    cases h
    exact ⟨fun _ => rfl, fun _ => rfl, fun _ => rfl, fun _ => rfl⟩

/-! ## Memory -/

theorem byte_sub_one_sub_one (b : Byte) : b - 1 - 1 = b - 2 := sub_sub b 1 1

/-- A rule leaves every address that its instruction does not store to. -/
theorem rule_keeps_unstored {e : Effect} {b : Bool} (hr : i.row = some r)
    (he : ruleOf r.kind (resolve i.operand s).1 b s = some e) {x : Word} (hx : x ∉ storedAt i s) :
    e.state.read8 x = s.read8 x := by
  have memory := rule_memory he
  simp only [storedAt, addrOf, isKind_of_row hr] at hx
  generalize hm : e.state.mem = m at memory
  cases memory with
  | kept => exact State.read8_congr hm x
  | stored ea v hres hk =>
    have other : x ≠ ea := by simpa [hk, hres] using hx
    rw [State.read8_congr hm, State.read8_write8_other s v other]
  | pushed v hk =>
    have other : x ≠ stackAddr s.sp := by
      obtain hk | hk : r.kind = .pha ∨ r.kind = .php := by simpa using hk
      all_goals simpa [hk] using hx
    rw [State.read8_congr hm, State.read8_push_other s v other]
  | called w hk =>
    obtain ⟨hi, lo⟩ : x ≠ stackAddr s.sp ∧ x ≠ stackAddr (s.sp - 1) := by simpa [hk] using hx
    rw [State.read8_congr hm, State.read8_pushWord, if_neg lo, if_neg hi]
  | trapped w hk hb =>
    obtain ⟨hi, lo, status⟩ : x ≠ stackAddr s.sp ∧ x ≠ stackAddr (s.sp - 1) ∧ x ≠ stackAddr (s.sp - 2) := by
      simpa [hk, hb] using hx
    rw [State.read8_congr hm, State.read8_trapEntry, State.read8_pushWord, byte_sub_one_sub_one, if_neg status,
      if_neg lo, if_neg hi]

/-- Settles O53: a legal instruction commits its rule's effect, whose memory `rule_keeps_unstored` bounds; raising a
fault leaves memory. -/
theorem memoryChangesOnlyAtTheStoredAddresses : Obligations.MemoryChangesOnlyAtTheStoredAddresses := by
  intro i s t x h hx
  cases hr : i.row with
  | some r =>
    obtain ⟨e, he, hexec⟩ := exec_row_commits hr s
    cases hexec.symm.trans h
    exact rule_keeps_unstored hr he hx
  | none =>
    obtain ⟨op, rfl⟩ := eq_illegal_of_row_none hr
    cases h
    rfl

/-! ## The run state -/

/-- BRK is the one instruction of its kind: the table has one such row. -/
theorem eq_brk_of_kind (hr : i.row = some r) (hk : r.kind = .brk) : i = .brk := by
  have hrow : r = rowBrk := forall_row (P := fun r => r.kind = .brk → r = rowBrk) rfl hr hk
  rw [← decode_operandBytes hr [], hrow, decode_brk]

/-- Settles O54: the two exceptions are BRK without a handler, from the frame of the rules, and an illegal byte, which
raises its fault; so every other instruction keeps the run state. -/
theorem onlyBrkAndIllegalBytesLeaveRunning : Obligations.OnlyBrkAndIllegalBytesLeaveRunning := by
  intro i s
  cases hr : i.row with
  | some r =>
    obtain ⟨e, he, hexec⟩ := exec_row_commits hr s
    have frame := rule_framed he
    obtain hrun | ⟨hk, hb, hrun⟩ := frame.run
    · exact ⟨_, hexec, frame.brkHandler, .inl hrun, fun _ _ => hrun⟩
    · have hbrk := eq_brk_of_kind hr hk
      refine ⟨_, hexec, frame.brkHandler, .inr (.inl ⟨hbrk, hb, hrun⟩), fun h _ => ?_⟩
      simp [hbrk, hb] at h
  | none =>
    obtain ⟨op, rfl⟩ := eq_illegal_of_row_none hr
    exact ⟨_, exec_illegal op s, rfl, .inr (.inr ⟨op, rfl, rfl⟩), fun _ h => absurd rfl (h op)⟩

/-! ## PC and the cycle counter -/

/-- The cycles a legal instruction adds (R80): base cost, page-cross penalty and what its rule adds. -/
def Effect.cost (e : Effect) (r : Row) (pcross : Bool) : Nat := r.base + (r.pageCross && pcross).toNat + e.extra

theorem Effect.commit_cycles_eq (e : Effect) (r : Row) (pcross : Bool) (s : State) :
    (e.commit r pcross s).cycles = s.cycles + e.cost r pcross := rfl

/-- The row of a branch: two bytes, 2 cycles, no page-cross penalty in the table (R121). -/
theorem branch_row (hr : i.row = some r) (hk : r.kind ∈ branchKinds) :
    r.length = 2 ∧ r.base = 2 ∧ r.pageCross = false :=
  forall_row (P := fun r => r.kind ∈ branchKinds → r.length = 2 ∧ r.base = 2 ∧ r.pageCross = false) rfl hr hk

/-- A branch adds 2 to 4 cycles, and 3 at least where it goes to its target. -/
theorem branch_cost {res : Resolved} {b : Bool} {e : Effect} (hr : i.row = some r) (hk : r.kind ∈ branchKinds)
    (he : ruleOf r.kind res b s = some e) :
    2 ≤ e.cost r b ∧ e.cost r b ≤ 4 ∧ ((e.commit r b s).pc ≠ s.pc + 2 → 3 ≤ e.cost r b) := by
  obtain ⟨hlen, hbase, hcross⟩ := branch_row hr hk
  have hcost : e.cost r b = 2 + e.extra := by simp [Effect.cost, hbase, hcross]
  have frame := rule_framed he
  have := frame.extra_le
  refine ⟨by omega, by omega, fun hpc => ?_⟩
  obtain hnone | hextra := frame.taken hk
  · exact absurd (by simp [hnone, hlen]) hpc
  · omega

/-- Settles O55: the frame of the rules says that only a redirect sets a target and only a branch adds cycles, for a
branch `branch_cost`. -/
theorem legalStepsAdvanceAndCount : Obligations.LegalStepsAdvanceAndCount := by
  intro i r s t hr h
  obtain ⟨e, he, hexec⟩ := exec_row_commits hr s
  cases hexec.symm.trans h
  have frame := rule_framed he
  have branch : isBranch i = decide (r.kind ∈ branchKinds) := (isBranch_eq i).trans (isKind_of_row hr _)
  simp only [mayRedirect, branch, isKind_of_row hr, Bool.or_eq_false_iff, Bool.and_eq_false_iff,
    decide_eq_false_iff_not, decide_eq_true_iff]
  refine ⟨?pc, ?cycles, ?branch⟩
  case pc =>
    intro ⟨⟨hbranch, hjump⟩, hbrk⟩
    have hnone := frame.target hbranch hjump (fun hk => hbrk.resolve_left (by simp [hk]))
    simp [hnone]
  case cycles =>
    intro hbranch
    simp [frame.extra hbranch, Nat.add_assoc]
  case branch =>
    intro hbranch
    obtain ⟨hmin, hmax, htaken⟩ := branch_cost hr hbranch he
    rw [Effect.commit_cycles_eq]
    exact ⟨by omega, by omega, fun hpc => Nat.add_le_add_left (htaken hpc) _⟩

/-! ## The step call -/

/-- What a legal instruction costs lies between 2 and 7 cycles. -/
theorem cost_bounds {res : Resolved} {b : Bool} {e : Effect} (hr : i.row = some r)
    (he : ruleOf r.kind res b s = some e) : 2 ≤ e.cost r b ∧ e.cost r b ≤ 7 := by
  by_cases hk : r.kind ∈ branchKinds
  · obtain ⟨hmin, hmax, -⟩ := branch_cost hr hk he
    omega
  · obtain ⟨hbase, hpenalty⟩ : 2 ≤ r.base ∧ r.base + r.pageCross.toNat ≤ 7 :=
      forall_row (P := fun r => 2 ≤ r.base ∧ r.base + r.pageCross.toNat ≤ 7) rfl hr
    have hcross : (r.pageCross && b).toNat ≤ r.pageCross.toNat := by cases b <;> simp
    have hextra := (rule_framed he).extra hk
    unfold Effect.cost
    omega

/-- Settles O6: a legal byte commits its rule's effect, which raises no fault and costs `cost_bounds`; any other byte
is `illegal` and raises its own. -/
theorem stepCallReturnsCyclesFaultOrRefusal : Obligations.StepCallReturnsCyclesFaultOrRefusal := by
  intro s
  refine ⟨fun hs => stepCall_of_refused (step_not_running hs), fun hs => ⟨fun r hr => ?legal, fun hnone => ?illegal⟩⟩
  case legal =>
    rw [lookup_pc] at hr
    obtain ⟨e, he, hexec⟩ := exec_row_commits hr s
    have hstep := (step_running hs).trans hexec
    have frame := rule_framed he
    have unfaulted : ∀ f, (e.commit r (resolve s.fetch.operand s).2 s).run ≠ .faulted f := by
      obtain hrun | ⟨-, -, hrun⟩ := frame.run <;> simp [hrun, hs]
    have hcycles := Effect.commit_cycles_eq e r (resolve s.fetch.operand s).2 s
    refine ⟨_, e.cost r _, hstep, ?_, hcycles, cost_bounds hr he⟩
    rw [stepCall_of_next hstep unfaulted, hcycles, Nat.add_sub_cancel_left]
  case illegal =>
    have hstep := stepRunsTheDecodedInstruction s _ hs (decode_of_lookup_none hnone _ _)
    exact stepCall_of_faulted hstep rfl

end Sys2Proof.Machine
end

section
/-! The stack images of P (40_dispatch.md R88) and `Compare` (R91), flag by flag. -/

namespace Sys2Proof.Machine

/-! ## The stack images of P -/

theorem getFlag_or (p q : Byte) (f : Flag) : getFlag (p ||| q) f = (getFlag p f || getFlag q f) :=
  BitVec.getLsbD_or

theorem getFlag_and (p q : Byte) (f : Flag) : getFlag (p &&& q) f = (getFlag p f && getFlag q f) :=
  BitVec.getLsbD_and

/-- The eight flags are the eight bits of P (R19). -/
theorem eq_of_getFlag_eq {p q : Byte} (h : ∀ f, getFlag p f = getFlag q f) : p = q := by
  apply BitVec.eq_of_getLsbD_eq
  intro n hn
  match n, hn with
  | 0, _ => exact h .c
  | 1, _ => exact h .z
  | 2, _ => exact h .i
  | 3, _ => exact h .d
  | 4, _ => exact h .b
  | 5, _ => exact h .u
  | 6, _ => exact h .v
  | 7, _ => exact h .n

/-- 0x30 has the bits of B and U. -/
theorem getFlag_pushImage (p : Byte) (f : Flag) :
    getFlag (pushImage p) f = (getFlag p f || decide (f = .b ∨ f = .u)) := by
  rw [pushImage, getFlag_or]
  cases f <;> rfl

/-- 0xCF lacks the bits of B and U, and 0x20 has that of U. -/
theorem getFlag_pullImage (v : Byte) (f : Flag) :
    getFlag (pullImage v) f = (getFlag v f && decide (f ≠ .b ∧ f ≠ .u) || decide (f = .u)) := by
  rw [pullImage, getFlag_or, getFlag_and]
  cases f <;> rfl

theorem statusOk_iff (p : Byte) : statusOk p = true ↔ getFlag p .u = true ∧ getFlag p .b = false := by
  simp [statusOk]

/-- Pulling the pushed image (R88) gives a status with U set and B clear back. -/
theorem pullImage_pushImage {p : Byte} (h : statusOk p = true) : pullImage (pushImage p) = p := by
  obtain ⟨hu, hb⟩ := (statusOk_iff p).mp h
  apply eq_of_getFlag_eq
  intro f
  rw [getFlag_pullImage, getFlag_pushImage]
  cases f <;> simp [hu, hb]

/-- Settles O26: both images flag by flag, and the round trip `pullImage_pushImage`. -/
theorem stackImagesOfP : Obligations.StackImagesOfP := by
  intro p
  refine ⟨⟨?_, ?_, fun f hb hu => ?_⟩, ⟨?_, ?_, fun f hb hu => ?_⟩, pullImage_pushImage⟩
  · simp [getFlag_pushImage]
  · simp [getFlag_pushImage]
  · simp [getFlag_pushImage, hb, hu]
  · simp [getFlag_pullImage]
  · simp [getFlag_pullImage]
  · simp [getFlag_pullImage, hb, hu]

/-! ## Compare -/

theorem getFlag_compareFlags_c (p r m : Byte) : getFlag (compareFlags p r m) .c = decide (m.toNat ≤ r.toNat) := by
  simp [compareFlags]

theorem getFlag_compareFlags_z (p r m : Byte) : getFlag (compareFlags p r m) .z = decide (r = m) := by
  simp [compareFlags, beq_eq_decide]

theorem getFlag_compareFlags_n (p r m : Byte) : getFlag (compareFlags p r m) .n = (r - m).msb := by
  simp [compareFlags]

/-- Settles O29: `Compare` flag by flag; `SubC` with carry in has the difference as its result (`subC_result`) and "no
borrow" as its carry out (`subC_carry`). -/
theorem compareIsSubtractionWithoutBorrowIn : Obligations.CompareIsSubtractionWithoutBorrowIn := by
  intro p r m q
  have result : (subC r m true).1 = r - m := subC_result r m true
  have carry : (subC r m true).2.1 = decide (m.toNat ≤ r.toNat) := subC_carry r m true
  have zero : r - m = 0 ↔ r = m := sub_eq_zero
  refine ⟨getFlag_compareFlags_c p r m, getFlag_compareFlags_z p r m, getFlag_compareFlags_n p r m, ?c, ?z, ?n, ?rest⟩
  case c => rw [carry, getFlag_compareFlags_c]
  case z => rw [result, getFlag_compareFlags_z, decide_eq_decide, zero]
  case n => rw [result, getFlag_compareFlags_n]
  case rest => exact fun f hc hz hn => getFlag_compareFlags_of_ne hc hz hn p r m

end Sys2Proof.Machine
end

section
/-! The invariant of reachable states (10_state.md R25, R26; 60_exceptions.md R159; log 1): every step, the reset of
70_reset_and_hazards.md section 1 and the host's load keep it. -/

namespace Sys2Proof.Machine

variable {i : Instr} {r : Row} {s t : State} {e : Effect} {res : Resolved} {pcross : Bool}

/-! ## Every step -/

theorem statusOk_pullImage (v : Byte) : statusOk (pullImage v) = true := by
  simp [statusOk, getFlag_pullImage]

/-- Only PLP and RTI are named to write U and B (10_state.md section 5). -/
theorem not_mem_flagsWritten {f : Flag} (hf : f = .u ∨ f = .b) (hi : isKind [.plp, .rti] i = false) :
    f ∉ flagsWritten i s := by
  simp only [flagsWritten, hi, Bool.false_eq_true, if_false]
  obtain rfl | rfl := hf <;> split_ifs <;> simp

/-- A rule keeps U set and B clear: PLP and RTI write a pulled image, the others write neither flag. -/
theorem rule_statusOk (hr : i.row = some r) (he : ruleOf r.kind res pcross s = some e) (hp : statusOk s.p = true) :
    statusOk e.state.p = true := by
  cases hi : isKind [.plp, .rti] i with
  | true =>
    rw [isKind_of_row hr, decide_eq_true_iff] at hi
    obtain hk | hk : r.kind = .plp ∨ r.kind = .rti := by simpa using hi
    · rw [hk, ruleOf, rulePlp_some] at he
      subst he
      exact statusOk_pullImage _
    · rw [hk, ruleOf, ruleRti_some] at he
      subst he
      exact State.trapReturn_p s ▸ statusOk_pullImage _
  | false =>
    have hu := rule_keeps_unnamed_flag hr he (not_mem_flagsWritten (.inl rfl) hi)
    have hb := rule_keeps_unnamed_flag hr he (not_mem_flagsWritten (.inr rfl) hi)
    rwa [statusOk, hu, hb]

/-- A rule keeps memory canonical: its writes and pushes go to 16-bit addresses. -/
theorem rule_wf {k : Kind} (he : ruleOf k res pcross s = some e) (hm : s.mem.wf = true) : e.state.mem.wf = true := by
  have memory := rule_memory he
  generalize e.state.mem = m at memory
  cases memory with
  | kept => exact hm
  | stored ea v => exact State.wf_write8 hm ea v
  | pushed v => exact State.wf_push hm v
  | called w => exact State.wf_pushWord hm w
  | trapped w => exact State.wf_trapEntry hm w

theorem faultOk_of_not_faulted (h : s.run = .running ∨ s.run = .halted) : faultOk s = true := by
  unfold faultOk
  obtain hs | hs := h <;> rw [hs]

/-- A fault record that R156 allows is kept with the PC it names. -/
theorem faultOk_raiseFault {op : Byte} (hop : op ∈ illegalOpcodes) :
    faultOk (s.raiseFault (.illegalOpcode op s.pc)) = true := by
  simp [faultOk, hop]

/-- Settles O12: a legal instruction commits its rule's effect, which keeps the three parts of the invariant by
`rule_wf`, `rule_statusOk` and the frame of the run state; an illegal byte, which the decoder answers only where R56
lists it, raises a fault with that byte and PC. -/
theorem stepKeepsTheInvariant : Obligations.StepKeepsTheInvariant := by
  intro s t hinv hstep
  obtain ⟨hmem, hp, -⟩ := hinv
  obtain ⟨hs, hexec⟩ := step_next hstep
  cases hr : s.fetch.row with
  | some r =>
    obtain ⟨e, he, hcommit⟩ := exec_row_commits hr s
    cases hcommit.symm.trans hexec
    refine ⟨rule_wf he hmem, rule_statusOk hr he hp, faultOk_of_not_faulted ?_⟩
    obtain hrun | ⟨-, -, hrun⟩ := (rule_framed he).run
    · exact .inl (hrun.trans hs)
    · exact .inr hrun
  | none =>
    have hillegal : s.fetch = .illegal (s.read8 s.pc) := decode_of_row_none hr
    have hwf : s.fetch.wf = true := decode_wf _ _ _
    rw [hillegal] at hexec hwf
    cases hexec
    exact ⟨hmem, hp, faultOk_raiseFault (List.contains_iff_mem.mp hwf)⟩

/-! ## The host's operations -/

/-- Settles O1: `resetTo` is an update of the other eight fields, and State.reset is it on a machine with nothing
listed. -/
theorem resetToGivesArchitecturalDefaults : Obligations.ResetToGivesArchitecturalDefaults := by
  intro s entry t
  exact ⟨⟨rfl, rfl, rfl, rfl, rfl, rfl, rfl, rfl, rfl, rfl⟩, rfl⟩

/-- A machine just reset over a canonical memory meets the invariant: it is Running with the P of the spec's D2. -/
theorem inv_resetTo (hm : s.mem.wf = true) (entry : Word) : Inv (s.resetTo entry) :=
  ⟨hm, (by decide : statusOk 0x24 = true), faultOk_of_not_faulted (.inl rfl)⟩

/-- Creation is a reset, over the given memory and session parameter. -/
theorem State.boot_eq_resetTo (m : Memory) (h : Bool) (entry : Word) :
    State.boot m h entry = (State.boot m h entry).resetTo entry := rfl

/-- Settles O13: State.reset and every created machine are just reset, over no cells or over the given memory. -/
theorem resetHasTheInvariant : Obligations.ResetHasTheInvariant := by
  refine ⟨inv_resetTo (s := State.reset) rfl Config.resetEntry, fun m h entry hm => ?_⟩
  rw [State.boot_eq_resetTo]
  exact inv_resetTo hm entry

/-- Settles O14: a reset is `inv_resetTo`; a load that succeeds ends inside the address space, so memory stays
canonical, and P, PC and the run state are the old ones. -/
theorem hostOperationsKeepTheInvariant : Obligations.HostOperationsKeepTheInvariant := by
  intro s ⟨hmem, hp, hfault⟩
  refine ⟨inv_resetTo hmem, fun address bytes t hload => ?_⟩
  have fits : address.toNat + bytes.length ≤ 0x10000 := by
    by_contra hover
    rw [State.load_error (by omega)] at hload
    cases hload
  rw [State.load_ok fits] at hload
  cases hload
  exact ⟨⟨Memory.wf_loadFrom hmem fits, hp, hfault⟩, rfl⟩

end Sys2Proof.Machine
end

section
/-! The remaining forms: SBC (42_arithmetic_compare.md R103) with its round trip C1, JMP and BRK
(47_jump_call_system.md), the stack instructions of 48_stack.md and the flag and transfer instructions of
49_flags_transfer.md. -/

namespace Sys2Proof.Machine

/-! ## SBC -/

/-- C1: subtracting what was added, with the carry of the sum, leaves the two carries less one. -/
theorem subC_addC (x m : Byte) (c0 : Bool) :
    (subC (addC x m c0).1 m (addC x m c0).2.1).1 = x + BitVec.ofNat 8 (c0.toNat + (addC x m c0).2.1.toNat) - 1 := by
  have sum := addC_exact x m c0
  have diff := subC_exact (addC x m c0).1 m (addC x m c0).2.1
  have := (subC (addC x m c0).1 m (addC x m c0).2.1).1.isLt
  apply BitVec.eq_of_toNat_eq
  rw [BitVec.toNat_sub, BitVec.toNat_add, BitVec.toNat_ofNat]
  have one : (1 : Byte).toNat = 1 := rfl
  rw [one]
  omega

/-- Settles O34: every form is `runs_withSum` at its row, with the rule of SBC by `ruleSbc_some`; the round trip is
`subC_addC`. -/
theorem sbcSubtractsMemoryAndBorrow : Obligations.SbcSubtractsMemoryAndBorrow := fun _ _ _ _ =>
  ⟨runs_withSum ruleSbc ruleSbc_some rowSbcIndx rfl rfl rfl,
    runs_withSum ruleSbc ruleSbc_some rowSbcZp rfl rfl rfl,
    runs_withSum ruleSbc ruleSbc_some rowSbcImm rfl rfl rfl,
    runs_withSum ruleSbc ruleSbc_some rowSbcAbs rfl rfl rfl,
    runs_withSum ruleSbc ruleSbc_some rowSbcIndy rfl rfl rfl,
    runs_withSum ruleSbc ruleSbc_some rowSbcZpx rfl rfl rfl,
    runs_withSum ruleSbc ruleSbc_some rowSbcAbsy rfl rfl rfl,
    runs_withSum ruleSbc ruleSbc_some rowSbcAbsx rfl rfl rfl,
    subC_addC⟩

/-! ## JMP and BRK -/

/-- Settles O41: both forms are `runs_of_goto` at their row; the resolver has read the pointer of the second one. -/
theorem jmpGoesToItsAddressOrThroughItsPointer : Obligations.JmpGoesToItsAddressOrThroughItsPointer := fun s a =>
  ⟨runs_of_goto ruleJmp rowJmpAbs rfl rfl (ruleJmp_some.mpr ⟨a, rfl, rfl⟩) rfl,
    runs_of_goto ruleJmp rowJmpInd rfl rfl (ruleJmp_some.mpr ⟨s.pageRead16 a, rfl, rfl⟩) rfl⟩

/-- The trap entry (R162) is three pushes and the setting of I: the pushes leave the P that is pushed. -/
theorem State.trapEntry_eq (s : State) (ret : Word) :
    s.trapEntry ret = { ((s.push (hiByte ret)).push (loByte ret)).push (pushImage s.p) with
      p := setFlag s.p .i true } := rfl

/-- Settles O43: `ruleBrk_some` names the effect, a plain one without a handler and the trap entry with one. -/
theorem brkHaltsOrEntersTheHandler : Obligations.BrkHaltsOrEntersTheHandler := by
  intro s
  refine ⟨fun hb => ?halt, fun hb => ?trap⟩
  case halt =>
    exact runs_of_plain (rule := ruleBrk) rowBrk rfl rfl (ruleBrk_some.mpr (by simp [hb])) rfl rfl
  case trap =>
    have runs : Runs .brk [0x00] s ((s.trapEntry (s.pc + 2)).jumped s.trapTarget 7) :=
      runs_of_goto ruleBrk rowBrk rfl rfl (ruleBrk_some.mpr (by simp [hb])) (s.trapEntry_cycles _)
    rwa [State.trapEntry_eq] at runs

/-! ## Stack instructions -/

/-- Settles O46: both are `runs_of_implied` at their row; the pulled byte is the one above SP by definition (R137). -/
theorem phaPushesAndPlaPullsA : Obligations.PhaPushesAndPlaPullsA := fun _ =>
  ⟨runs_of_implied rulePha rulePha_some rowPha rfl rfl rfl rfl,
    runs_of_implied rulePla rulePla_some rowPla rfl rfl rfl rfl⟩

/-- Settles O47: both are `runs_of_implied` at their row, with the images of R88 written out. -/
theorem phpPushesAndPlpPullsP : Obligations.PhpPushesAndPlpPullsP := fun _ =>
  ⟨runs_of_implied rulePhp rulePhp_some rowPhp rfl rfl rfl rfl,
    runs_of_implied rulePlp rulePlp_some rowPlp rfl rfl rfl rfl⟩

/-! ## Flag and transfer instructions -/

/-- Settles O48: each is `runs_of_implied` at its row; the rule's own lemma says which flag it writes. -/
theorem flagInstructionsWriteOneFlag : Obligations.FlagInstructionsWriteOneFlag := fun _ =>
  ⟨runs_of_implied ruleClc ruleClc_some rowClc rfl rfl rfl rfl,
    runs_of_implied ruleSec ruleSec_some rowSec rfl rfl rfl rfl,
    runs_of_implied ruleCli ruleCli_some rowCli rfl rfl rfl rfl,
    runs_of_implied ruleSei ruleSei_some rowSei rfl rfl rfl rfl,
    runs_of_implied ruleClv ruleClv_some rowClv rfl rfl rfl rfl,
    runs_of_implied ruleCld ruleCld_some rowCld rfl rfl rfl rfl,
    runs_of_implied ruleSed ruleSed_some rowSed rfl rfl rfl rfl,
    runs_of_implied ruleNop ruleNop_some rowNop rfl rfl rfl rfl⟩

/-- Settles O49: each is `runs_of_implied` at its row; the rule's own lemma says which register it copies, and that
of TXS names no flag. -/
theorem transfersCopyOneRegister : Obligations.TransfersCopyOneRegister := fun _ =>
  ⟨runs_of_implied ruleTax ruleTax_some rowTax rfl rfl rfl rfl,
    runs_of_implied ruleTay ruleTay_some rowTay rfl rfl rfl rfl,
    runs_of_implied ruleTxa ruleTxa_some rowTxa rfl rfl rfl rfl,
    runs_of_implied ruleTya ruleTya_some rowTya rfl rfl rfl rfl,
    runs_of_implied ruleTsx ruleTsx_some rowTsx rfl rfl rfl rfl,
    runs_of_implied ruleTxs ruleTxs_some rowTxs rfl rfl rfl rfl⟩

end Sys2Proof.Machine
end

section
/-! Pairs of instructions that undo each other on the stack (48_stack.md section 1): JSR and RTS, PHP and PLP, BRK
with a handler and RTI (60_exceptions.md section 2). -/

namespace Sys2Proof.Machine

/-! ## What a completed instruction left on the stack -/

section
variable (s : State) (w : Word) (k : Nat)

@[simp] theorem State.onward_pulled : (s.onward w k).pulled = s.pulled := rfl
@[simp] theorem State.jumped_pulled : (s.jumped w k).pulled = s.pulled := rfl
@[simp] theorem State.jumped_pulledWord : (s.jumped w k).pulledWord = s.pulledWord := rfl
@[simp] theorem State.jumped_trapReturnTarget : (s.jumped w k).trapReturnTarget = s.trapReturnTarget := rfl

end

/-! ## JSR and RTS -/

theorem word_add_two_add_one (w : Word) : w + 2 + 1 = w + 3 := BitVec.add_assoc w 2 1

theorem State.pushWord_sp_add_two (s : State) (w : Word) : (s.pushWord w).sp + 2 = s.sp := by
  rw [State.pushWord_sp, byte_sub_one_sub_one, BitVec.sub_add_cancel]

/-- Two pulls (R132) give back the word that was pushed (R131). -/
theorem State.pulledWord_pushWord (s : State) (w : Word) : (s.pushWord w).pulledWord = w := by
  rw [State.pulledWord_eq, State.read8_pushWord_lo, State.read8_pushWord_hi, wordOf_hiByte_loByte]

theorem exec_jsr (a : Word) (s : State) : exec (.jsr a) s = .next ((s.pushWord (s.pc + 2)).jumped a 6) :=
  (jsrPushesAndRtsPullsTheReturnAddress s a).1.2

theorem exec_rts (s : State) :
    exec .rts s = .next (({ s with sp := s.sp + 2 } : State).jumped (s.pulledWord + 1) 6) := by
  obtain ⟨-, -, -, -, -, hexec⟩ := jsrPushesAndRtsPullsTheReturnAddress s 0
  rwa [← State.pulledWord_eq] at hexec

/-- Settles O57: RTS pulls the word that JSR pushed, PC + 2, and goes one further. -/
theorem rtsUndoesJsr : Obligations.RtsUndoesJsr := by
  intro s a
  refine ⟨_, _, exec_jsr a s, exec_rts _, ?_⟩
  rw [State.jumped_pulledWord, State.pulledWord_pushWord, word_add_two_add_one, State.jumped_sp,
    State.pushWord_sp_add_two]
  simp [State.jumped]

/-! ## PHP and PLP -/

theorem exec_php (s : State) : exec .php s = .next ((s.push (pushImage s.p)).onward 1 3) :=
  (phpPushesAndPlpPullsP s).1.2

theorem exec_plp (s : State) :
    exec .plp s = .next (({ s with p := pullImage s.pulled, sp := s.sp + 1 } : State).onward 1 4) :=
  (phpPushesAndPlpPullsP s).2.2

/-- Settles O58: PLP pulls the image that PHP pushed, which `pullImage_pushImage` takes back to P. -/
theorem plpUndoesPhp : Obligations.PlpUndoesPhp := by
  intro s hp
  refine ⟨_, _, exec_php s, exec_plp _, ?_⟩
  rw [State.onward_pulled, State.pulled_push, pullImage_pushImage hp, State.onward_sp, State.push_sp_add_one]
  simp [State.onward, BitVec.add_assoc]

/-! ## BRK and RTI -/

section
variable (s : State) (w : Word)

/-- The trap entry (R162) pushes the status byte last. -/
theorem State.trapEntry_sp_add_one : (s.trapEntry w).sp + 1 = (s.pushWord w).sp := by
  rw [State.trapEntry_sp, State.pushWord_sp, BitVec.sub_add_cancel]

theorem State.trapEntry_sp_add_three : (s.trapEntry w).sp + 3 = s.sp := by
  rw [State.trapEntry_sp, byte_sub_one_sub_one]
  bv_omega

theorem State.pulled_trapEntry : (s.trapEntry w).pulled = pushImage s.p := by
  rw [State.pulled, State.trapEntry_sp_add_one, State.read8_trapEntry, State.pushWord_sp, if_pos rfl]

/-- A pull after the trap entry uncovers the return address: the status byte lies below it. -/
theorem State.pulledWord_afterPull_trapEntry : (s.trapEntry w).afterPull.pulledWord = (s.pushWord w).pulledWord := by
  have above : ∀ k : Byte, k ≠ 0 → (s.trapEntry w).read8 (stackAddr ((s.pushWord w).sp + k)) =
      (s.pushWord w).read8 (stackAddr ((s.pushWord w).sp + k)) := fun k hk => by
    rw [State.read8_trapEntry, ← State.pushWord_sp s w, if_neg (fun h => hk (add_eq_left.mp (stackAddr_inj h)))]
  rw [State.pulledWord_eq, State.pulledWord_eq, State.read8_afterPull, State.read8_afterPull, State.afterPull_sp,
    State.trapEntry_sp_add_one, above 1 (by decide), above 2 (by decide)]

theorem State.trapReturnTarget_trapEntry : (s.trapEntry w).trapReturnTarget = w :=
  (s.pulledWord_afterPull_trapEntry w).trans (s.pulledWord_pushWord w)

end

theorem exec_brk {s : State} (hb : s.brkHandler = true) :
    exec .brk s = .next ((s.trapEntry (s.pc + 2)).jumped s.trapTarget 7) :=
  ((brkHaltsOrEntersTheHandler s).2 hb).2

theorem exec_rti (s : State) :
    exec .rti s =
      .next (({ s with p := pullImage s.pulled, sp := s.sp + 3 } : State).jumped s.trapReturnTarget 6) := by
  have hexec := (rtiPullsStatusAndReturnAddress s).2
  rwa [← State.trapReturnTarget_eq] at hexec

/-- Settles O59: RTI pulls the status image and then the return address that the trap entry pushed. -/
theorem rtiUndoesTheTrapEntry : Obligations.RtiUndoesTheTrapEntry := by
  intro s hb hp
  refine ⟨_, _, exec_brk hb, ?i, rfl, exec_rti _, ?restored⟩
  case i => rw [State.jumped_p, State.trapEntry_p, getFlag_setFlag_same (by decide)]
  case restored =>
    rw [State.jumped_pulled, State.pulled_trapEntry, pullImage_pushImage hp, State.jumped_trapReturnTarget,
      State.trapReturnTarget_trapEntry, State.jumped_sp, State.trapEntry_sp_add_three]
    simp [State.jumped]

end Sys2Proof.Machine
end

section
/-! Decimal mode is inert (42_arithmetic_compare.md R101): D passes through every rule that does not name it, so that
running with D set to a value is running and then setting D to it. -/

namespace Sys2Proof.Machine

/-! ## D commutes with the flag helpers -/

/-- Settings of two flags (R86) commute. -/
theorem setFlag_comm {f g : Flag} (h : f ≠ g) (p : Byte) (on on' : Bool) :
    setFlag (setFlag p f on) g on' = setFlag (setFlag p g on') f on := by
  by_cases hf : f = .u
  · subst hf
    rfl
  by_cases hg : g = .u
  · subst hg
    rfl
  apply eq_of_getFlag_eq
  intro q
  by_cases hqf : q = f
  · subst hqf
    rw [getFlag_setFlag_of_ne h, getFlag_setFlag_same hf, getFlag_setFlag_same hf]
  by_cases hqg : q = g
  · subst hqg
    rw [getFlag_setFlag_same hg, getFlag_setFlag_of_ne hqf, getFlag_setFlag_same hg]
  · simp [hqf, hqg]

section
variable (p : Byte) (on : Bool)

theorem setFlag_setFlag_d {f : Flag} (hf : f ≠ .d) (on' : Bool) :
    setFlag (setFlag p .d on) f on' = setFlag (setFlag p f on') .d on :=
  setFlag_comm hf.symm p on on'

@[simp] theorem setZN_setFlag_d (v : Byte) : setZN (setFlag p .d on) v = setFlag (setZN p v) .d on := by
  simp [setZN, setFlag_setFlag_d]

@[simp] theorem compareFlags_setFlag_d (r m : Byte) :
    compareFlags (setFlag p .d on) r m = setFlag (compareFlags p r m) .d on := by
  simp [compareFlags, setFlag_setFlag_d]

@[simp] theorem bitFlags_setFlag_d (a m : Byte) :
    bitFlags (setFlag p .d on) a m = setFlag (bitFlags p a m) .d on := by
  simp [bitFlags, setFlag_setFlag_d]

end

/-! ## D set in a state and in an effect -/

/-- The state with D set to a value (R24). -/
def State.withD (s : State) (on : Bool) : State := { s with p := setFlag s.p .d on }

/-- The effect with D set to a value in the state it leaves. -/
def Effect.withD (e : Effect) (on : Bool) : Effect := { e with state := e.state.withD on }

variable {res : Resolved} {pcross : Bool} {s t : State} {e : Effect} {on : Bool}

/-- The resolver reads registers and memory, not P (R57). -/
theorem resolve_withD (o : Operand) : resolve o (s.withD on) = resolve o s := by
  cases o <;> rfl

theorem operandOf_withD : operandOf res (s.withD on) = operandOf res s := by
  cases res <;> rfl

theorem writeBack_withD {v : Byte} (h : writeBack res v s = some t) :
    writeBack res v (s.withD on) = some (t.withD on) := by
  obtain ⟨ea, rfl, rfl⟩ | ⟨rfl, rfl⟩ := writeBack_some.mp h
  · rfl
  · rfl

theorem branchIf_withD {cond : Bool} (h : branchIf cond res pcross s = some e) :
    branchIf cond res pcross (s.withD on) = some (e.withD on) := by
  obtain ⟨target, htarget, rfl⟩ := branchIf_some.mp h
  exact branchIf_some.mpr ⟨target, htarget, by cases cond <;> rfl⟩

/-- The other flags read as before. -/
@[simp] theorem getFlag_withD {f : Flag} (hf : f ≠ .d) : getFlag (s.withD on).p f = getFlag s.p f :=
  getFlag_setFlag_of_ne hf s.p on

/-! ## The rules -/

/-- A rule that neither pushes, pulls, sets nor clears D has the effect it has otherwise, with D set. The cases are
grouped by the shape of the rule. -/
theorem rule_withD {k : Kind} (hk : k ∉ [.php, .plp, .rti, .cld, .sed]) (hb : k = .brk → s.brkHandler = false)
    (he : ruleOf k res pcross s = some e) : ruleOf k res pcross (s.withD on) = some (e.withD on) := by
  cases k with
  | lda | ldx | ldy | adc | sbc | cmp | cpx | cpy | and | ora | eor | bit =>
    simp only [ruleOf, ruleLda_some, ruleLdx_some, ruleLdy_some, ruleAdc_some, ruleSbc_some, ruleCmp_some,
      ruleCpx_some, ruleCpy_some, ruleAnd_some, ruleOra_some, ruleEor_some, ruleBit_some] at he ⊢
    obtain ⟨m, hm, rfl⟩ := he
    refine ⟨m, operandOf_withD.trans hm, ?_⟩
    simp [Effect.withD, Effect.plain, State.withD, State.withSum, setFlag_setFlag_d]
  | inc | dec | asl | lsr | rol | ror =>
    simp only [ruleOf, ruleInc_some, ruleDec_some, ruleAsl_some, ruleLsr_some, ruleRol_some, ruleRor_some] at he ⊢
    obtain ⟨m, t, hm, ht, rfl⟩ := he
    refine ⟨m, t.withD on, operandOf_withD.trans hm, ?_, ?_⟩
    · simpa [State.withD] using writeBack_withD ht
    · simp [Effect.withD, Effect.plain, State.withD, setFlag_setFlag_d]
  | sta | stx | sty | jmp | jsr =>
    simp only [ruleOf, ruleSta_some, ruleStx_some, ruleSty_some, ruleJmp_some, ruleJsr_some] at he ⊢
    obtain ⟨ea, hea, rfl⟩ := he
    exact ⟨ea, hea, rfl⟩
  | inx | iny | dex | dey | tax | tay | txa | tya | tsx | pla | clc | sec | cli | sei | clv =>
    simp only [ruleOf, ruleInx_some, ruleIny_some, ruleDex_some, ruleDey_some, ruleTax_some, ruleTay_some,
      ruleTxa_some, ruleTya_some, ruleTsx_some, rulePla_some, ruleClc_some, ruleSec_some, ruleCli_some, ruleSei_some,
      ruleClv_some] at he ⊢
    subst he
    simp [Effect.withD, Effect.plain, State.withD, State.pulled, State.read8, setFlag_setFlag_d]
  | txs | nop | pha | rts =>
    simp only [ruleOf, ruleTxs_some, ruleNop_some, rulePha_some, ruleRts_some] at he ⊢
    subst he
    rfl
  | bcc | bcs | beq | bne | bmi | bpl | bvc | bvs =>
    have branch := branchIf_withD (on := on) he
    simpa [ruleOf, ruleBcc, ruleBcs, ruleBeq, ruleBne, ruleBmi, ruleBpl, ruleBvc, ruleBvs] using branch
  | brk =>
    have hb := hb rfl
    rw [ruleOf, ruleBrk_some] at he ⊢
    subst he
    simp [Effect.withD, Effect.plain, State.withD, hb]
  | php | plp | rti | cld | sed => exact absurd (by decide) hk

/-- Settles O56: a legal instruction commits the effect of its rule, which `rule_withD` carries over, and the stages
after it do not read P; an illegal byte raises its fault with P as it is. -/
theorem decimalModeIsInert : Obligations.DecimalModeIsInert := by
  intro i s t on hd h
  cases hr : i.row with
  | some r =>
    obtain ⟨e, he, hexec⟩ := exec_row_commits hr s
    cases hexec.symm.trans h
    simp only [touchesD, isKind_of_row hr, Bool.or_eq_false_iff, Bool.and_eq_false_iff, decide_eq_false_iff_not] at hd
    obtain ⟨hk, hb⟩ := hd
    have he' := rule_withD (on := on) hk (fun hbrk => hb.resolve_left (by simp [hbrk])) he
    rw [← resolve_withD (on := on)] at he'
    exact (exec_of_row hr _).trans (runResolved_of_some he')
  | none =>
    obtain ⟨op, rfl⟩ := eq_illegal_of_row_none hr
    cases h
    rfl

end Sys2Proof.Machine
end

section
/-! Runs of steps: `run_until_halt` (40_dispatch.md R82) answers where the iterated step first leaves Running, or
where its bound is used up (log 7). -/

namespace Sys2Proof.Machine

/-! ## Where a run stops -/

/-- What `run_until_halt` returns with a state in which it stops (R82): the run state it found there. -/
def RunState.answer : RunState → RunResult
  | .running => .unfinished
  | .halted => .halted
  | .faulted f => .err f

/-- At most `n` steps lead from `s` to `t`, where the run stops: no step is left, or `t` is not Running. -/
def StopsWithin (n : Nat) (s t : State) : Prop :=
  ∃ k, k ≤ n ∧ core.run k s = .next t ∧ (t.run = .running → k = n)

variable {n : Nat} {s t u : State}

theorem stopsWithin_zero : StopsWithin 0 s t ↔ t = s := by
  constructor
  · rintro ⟨k, hk, hrun, -⟩
    obtain rfl : k = 0 := by omega
    cases hrun
    rfl
  · rintro rfl
    exact ⟨0, le_rfl, rfl, fun _ => rfl⟩

/-- A state that is not Running takes no step (R74), so that a run from it stops at once. -/
theorem stopsWithin_not_running (hs : s.run ≠ .running) : StopsWithin n s t ↔ t = s := by
  constructor
  · rintro ⟨k, -, hrun, -⟩
    cases k with
    | zero =>
      cases hrun
      rfl
    | succ k => cases (core_run_succ_not_running hs k).symm.trans hrun
  · rintro rfl
    exact ⟨0, Nat.zero_le n, rfl, fun h => absurd h hs⟩

/-- A run from a Running state with a step left goes on from the next state. -/
theorem stopsWithin_succ (hs : s.run = .running) (hstep : step s = .next u) :
    StopsWithin (n + 1) s t ↔ StopsWithin n u t := by
  constructor
  · rintro ⟨k, hk, hrun, hfull⟩
    cases k with
    | zero =>
      cases hrun
      exact absurd (hfull hs) (by omega)
    | succ k =>
      exact ⟨k, by omega, (core_run_succ_of_next hstep k).symm.trans hrun, fun ht => by have := hfull ht; omega⟩
  · rintro ⟨k, hk, hrun, hfull⟩
    exact ⟨k + 1, by omega, (core_run_succ_of_next hstep k).trans hrun, fun ht => by rw [hfull ht]⟩

/-! ## run_until_halt -/

theorem runUntilHalt_succ_of_stopped (hstep : step s = .next u) (hu : u.run ≠ .running) (n : Nat) :
    s.runUntilHalt (n + 1) = (u.run.answer, u) := by
  cases hrun : u.run with
  | running => exact absurd hrun hu
  | halted => exact runUntilHalt_succ_of_halted hstep hrun n
  | faulted f => exact runUntilHalt_succ_of_faulted hstep hrun n

theorem runUntilHalt_not_running (hs : s.run ≠ .running) (n : Nat) : s.runUntilHalt n = (.refused, s) := by
  cases n with
  | zero => rw [runUntilHalt_zero, if_neg hs]
  | succ n => exact runUntilHalt_succ_not_running hs n

/-- From a Running state `run_until_halt` returns the state where the run stops, with its answer. -/
theorem runUntilHalt_eq_iff (hs : s.run = .running) {q : RunResult} :
    s.runUntilHalt n = (q, t) ↔ q = t.run.answer ∧ StopsWithin n s t := by
  induction n generalizing s with
  | zero =>
    rw [runUntilHalt_zero, if_pos hs, stopsWithin_zero, Prod.mk.injEq]
    constructor
    · rintro ⟨rfl, rfl⟩
      exact ⟨by rw [hs]; rfl, rfl⟩
    · rintro ⟨rfl, rfl⟩
      exact ⟨by rw [hs]; rfl, rfl⟩
  | succ n ih =>
    obtain ⟨u, hstep⟩ := step_total hs
    rw [stopsWithin_succ hs hstep]
    by_cases hu : u.run = .running
    · rw [runUntilHalt_succ_of_running hstep hu, ih hu]
    · rw [runUntilHalt_succ_of_stopped hstep hu, stopsWithin_not_running hu, Prod.mk.injEq]
      constructor
      · rintro ⟨rfl, rfl⟩
        exact ⟨rfl, rfl⟩
      · rintro ⟨rfl, rfl⟩
        exact ⟨rfl, rfl⟩

/-- A run that stops in a state that is not Running needs no more steps, however many are left. -/
theorem StopsWithin.mono (h : StopsWithin n s t) (ht : t.run ≠ .running) (k : Nat) : StopsWithin (n + k) s t := by
  obtain ⟨j, hj, hrun, -⟩ := h
  exact ⟨j, by omega, hrun, fun h => absurd h ht⟩

theorem RunState.answer_inj {rs rs' : RunState} (h : rs.answer = rs'.answer) : rs = rs' := by
  cases rs <;> cases rs' <;> cases h <;> rfl

theorem RunState.answer_ne_refused (rs : RunState) : rs.answer ≠ .refused := by
  cases rs <;> exact nofun

/-- The answer for a run state comes from a Running state whose run stops there in that run state. -/
theorem runUntilHalt_eq_answer_iff {rs : RunState} :
    s.runUntilHalt n = (rs.answer, t) ↔ s.run = .running ∧ t.run = rs ∧ StopsWithin n s t := by
  by_cases hs : s.run = .running
  · rw [runUntilHalt_eq_iff hs]
    exact ⟨fun ⟨hq, hstop⟩ => ⟨hs, (RunState.answer_inj hq).symm, hstop⟩, fun ⟨_, ht, hstop⟩ => ⟨ht ▸ rfl, hstop⟩⟩
  · rw [runUntilHalt_not_running hs]
    exact ⟨fun h => absurd (congrArg Prod.fst h).symm rs.answer_ne_refused, fun h => absurd h.1 hs⟩

/-- In a stopped state a run stops with any number of steps that is in the bound. -/
theorem runUntilHalt_eq_stopped_iff {rs : RunState} (hrs : rs ≠ .running) :
    s.runUntilHalt n = (rs.answer, t) ↔
      s.run = .running ∧ t.run = rs ∧ ∃ k, k ≤ n ∧ core.run k s = .next t := by
  rw [runUntilHalt_eq_answer_iff]
  refine and_congr_right fun _ => and_congr_right fun ht => exists_congr fun k => ?_
  have stopped : t.run = .running → k = n := fun h => absurd (ht.symm.trans h) hrs
  exact ⟨fun ⟨hk, hrun, _⟩ => ⟨hk, hrun⟩, fun ⟨hk, hrun⟩ => ⟨hk, hrun, stopped⟩⟩

/-- In a Running state a run stops when the bound is used up. -/
theorem stopsWithin_running (ht : t.run = .running) : StopsWithin n s t ↔ core.run n s = .next t :=
  ⟨fun ⟨_, _, hrun, hfull⟩ => hfull ht ▸ hrun, fun hrun => ⟨n, le_rfl, hrun, fun _ => rfl⟩⟩

/-- Settles O7: the answers for Halted and Faulted are `runUntilHalt_eq_stopped_iff`; `unfinished` is that for
Running, which no run reaches from a state that is not Running; and where a run has stopped a larger bound changes
nothing (`StopsWithin.mono`). -/
theorem runUntilHaltStopsWhereTheRunDoes : Obligations.RunUntilHaltStopsWhereTheRunDoes := by
  intro n s t
  refine ⟨?halted, fun f => ?err, ?refused, ?unfinished, ?more⟩
  case halted => exact runUntilHalt_eq_stopped_iff (rs := .halted) nofun
  case err => exact runUntilHalt_eq_stopped_iff (rs := .faulted f) nofun
  case refused =>
    by_cases hs : s.run = .running
    · rw [runUntilHalt_eq_iff hs]
      exact ⟨fun h => absurd h.1.symm t.run.answer_ne_refused, fun h => absurd hs h.1⟩
    · rw [runUntilHalt_not_running hs, Prod.mk.injEq]
      exact ⟨fun h => ⟨hs, h.2.symm⟩, fun h => ⟨rfl, h.2.symm⟩⟩
  case unfinished =>
    refine (runUntilHalt_eq_answer_iff (rs := .running)).trans ⟨fun ⟨_, ht, hstop⟩ => ?_, fun ⟨ht, hrun⟩ => ?_⟩
    · exact ⟨ht, (stopsWithin_running ht).mp hstop⟩
    · have hstop := (stopsWithin_running ht).mpr hrun
      have hs : s.run = .running := by
        by_contra hs
        exact hs ((stopsWithin_not_running hs).mp hstop ▸ ht)
      exact ⟨hs, ht, hstop⟩
  case more =>
    intro hanswer k
    by_cases hs : s.run = .running
    · obtain ⟨hq, hstop⟩ := (runUntilHalt_eq_iff (q := (s.runUntilHalt n).1) (t := (s.runUntilHalt n).2) hs).mp rfl
      have hstopped : (s.runUntilHalt n).2.run ≠ .running := fun h => hanswer (by rw [hq, h, RunState.answer])
      exact (runUntilHalt_eq_iff hs).mpr ⟨hq, hstop.mono hstopped k⟩
    · rw [runUntilHalt_not_running hs, runUntilHalt_not_running hs]

end Sys2Proof.Machine
end
